-- ==== Sys2Proof/Word.lean ====
section
/-! DEFINITION. The words of the block: octets, port words and result fields (00_scope.md R6, R7; 30_encoding.md R60). -/

namespace Sys2Proof

/-- An octet of the frame buffer (00_scope.md R7). -/
abbrev Byte := BitVec 8

/-- An assembled 16-bit pattern `raw16` (00_scope.md R6, `RAW_WIDTH`). -/
abbrev RawWord := BitVec 16

/-- A result mantissa `m`, 32-bit two's complement (00_scope.md R6, `M_WIDTH`). -/
abbrev MWord := BitVec 32

/-- A decimal-place count `dp` (00_scope.md R6, `DP_WIDTH`). -/
abbrev DpWord := BitVec 2

/-- A parameter tag, the whole of format D (30_encoding.md R60, R61). -/
abbrev Tag := BitVec 6

/-- The frame index of format W (30_encoding.md R60, R64). -/
abbrev FrameIx := BitVec 4

/-- The eight octets of format W (30_encoding.md R60). -/
abbrev FrameData := BitVec 64

/-- The two ports (30_encoding.md R60). -/
inductive Port where
  | decode | write
deriving DecidableEq, Repr

/-- A word on one of the two ports; the port gives the format (30_encoding.md R60, R67). -/
inductive PortWord where
  /-- A decode request, format D, 6 bits. -/
  | decode (tag : Tag)
  /-- A frame write, format W, 68 bits. -/
  | write (bits : BitVec 68)
deriving DecidableEq, Repr

/-- The port a word stands on. -/
def PortWord.port : PortWord → Port
  | .decode _ => .decode
  | .write _ => .write

/-- The bits of a port word as a number. -/
def PortWord.value : PortWord → Nat
  | .decode tag => tag.toNat
  | .write bits => bits.toNat

end Sys2Proof
end

