-- ==== Sys2Proof/Syntax.lean ====
section
/-! DEFINITION. The transactions of the block as syntax: one constructor per row of spec/opcode_table.json
(30_encoding.md R71). A row that covers a range of codes carries the whole field of its format; WellFormed holds the
field inside the row's range. Log entry 12 says how the rows were made constructors. -/

namespace Sys2Proof

/-- The transactions of the two ports (30_encoding.md R60, R68): 39 known decodes, the decodes of unknown tags, the
frame writes, and the frame writes that select no frame. -/
inductive Instr where
  /-- `DEC ENGINE_SPEED`, tag 0: Engine speed (R100). -/
  | decEngineSpeed
  /-- `DEC MAP`, tag 1: Manifold absolute pressure (R101). -/
  | decMap
  /-- `DEC MGP`, tag 2: Manifold gauge pressure (R102). -/
  | decMgp
  /-- `DEC BARO`, tag 3: Barometric pressure (R103). -/
  | decBaro
  /-- `DEC TPS`, tag 4: Throttle position (R104). -/
  | decTps
  /-- `DEC INJ_DUTY`, tag 5: Injector duty cycle (R105). -/
  | decInjDuty
  /-- `DEC INJ_DUTY_2`, tag 6: 2nd-stage injector duty cycle (R106). -/
  | decInjDuty2
  /-- `DEC INJ_PW`, tag 7: Injector pulse width (R107). -/
  | decInjPw
  /-- `DEC ECT`, tag 8: Coolant temperature (R108). -/
  | decEct
  /-- `DEC IAT`, tag 9: Intake air temperature (R109). -/
  | decIat
  /-- `DEC BATT`, tag 10: Battery voltage (R110). -/
  | decBatt
  /-- `DEC MAF`, tag 11: Mass air flow (R111). -/
  | decMaf
  /-- `DEC GEAR`, tag 12: Gear position (R112). -/
  | decGear
  /-- `DEC INJ_TIMING`, tag 13: Injector timing (R113). -/
  | decInjTiming
  /-- `DEC IGN_TIMING`, tag 14: Ignition timing (R114). -/
  | decIgnTiming
  /-- `DEC CAM_IN_L`, tag 15: Cam inlet position L (R115). -/
  | decCamInL
  /-- `DEC CAM_IN_R`, tag 16: Cam inlet position R (R116). -/
  | decCamInR
  /-- `DEC CAM_EX_L`, tag 17: Cam exhaust position L (R117). -/
  | decCamExL
  /-- `DEC CAM_EX_R`, tag 18: Cam exhaust position R (R118). -/
  | decCamExR
  /-- `DEC LAMBDA1`, tag 19: Lambda 1 (R119). -/
  | decLambda1
  /-- `DEC LAMBDA2`, tag 20: Lambda 2 (R120). -/
  | decLambda2
  /-- `DEC TRIG1_ERR`, tag 21: Trigger-1 error count (R121). -/
  | decTrig1Err
  /-- `DEC FAULT_COUNT`, tag 22: Fault code count (R122). -/
  | decFaultCount
  /-- `DEC FUEL_PRESS`, tag 23: Fuel pressure (R123). -/
  | decFuelPress
  /-- `DEC OIL_TEMP`, tag 24: Oil temperature (R124). -/
  | decOilTemp
  /-- `DEC OIL_PRESS`, tag 25: Oil pressure (R125). -/
  | decOilPress
  /-- `DEC WS_LF`, tag 26: Wheel speed LF (R126). -/
  | decWsLf
  /-- `DEC WS_LR`, tag 27: Wheel speed LR (R127). -/
  | decWsLr
  /-- `DEC WS_RF`, tag 28: Wheel speed RF (R128). -/
  | decWsRf
  /-- `DEC WS_RR`, tag 29: Wheel speed RR (R129). -/
  | decWsRr
  /-- `DEC KNOCK1`, tag 30: Knock level 1 (R130). -/
  | decKnock1
  /-- `DEC KNOCK2`, tag 31: Knock level 2 (R131). -/
  | decKnock2
  /-- `DEC KNOCK3`, tag 32: Knock level 3 (R132). -/
  | decKnock3
  /-- `DEC KNOCK4`, tag 33: Knock level 4 (R133). -/
  | decKnock4
  /-- `DEC KNOCK5`, tag 34: Knock level 5 (R134). -/
  | decKnock5
  /-- `DEC KNOCK6`, tag 35: Knock level 6 (R135). -/
  | decKnock6
  /-- `DEC KNOCK7`, tag 36: Knock level 7 (R136). -/
  | decKnock7
  /-- `DEC KNOCK8`, tag 37: Knock level 8 (R137). -/
  | decKnock8
  /-- `DEC LIMITER_FLAGS`, tag 38: Limiter flags (R138). -/
  | decLimiterFlags
  /-- `DEC #39`, the unknown tag `100111` (R139). -/
  | decUnknown39
  /-- `DEC #n` for `n` in 40 to 47, the unknown tags `101xxx` (R139). -/
  | decUnknown40to47 (tag : Tag)
  /-- `DEC #n` for `n` in 48 to 63, the unknown tags `11xxxx` (R139). -/
  | decUnknown48to63 (tag : Tag)
  /-- `WRF f, b0 … b7` for `f` in 0 to 7 (R150). -/
  | wrf0to7 (frame : FrameIx) (data : FrameData)
  /-- `WRF f, b0 … b7` for `f` in 8 to 11 (R150). -/
  | wrf8to11 (frame : FrameIx) (data : FrameData)
  /-- `WRF 12, b0 … b7` (R150). -/
  | wrf12 (data : FrameData)
  /-- `WRF 13, b0 … b7`: no such frame (R151). -/
  | wrfIgnored13 (data : FrameData)
  /-- `WRF f, b0 … b7` for `f` in 14 and 15: no such frame (R151). -/
  | wrfIgnored14to15 (frame : FrameIx) (data : FrameData)
deriving DecidableEq, Repr

end Sys2Proof
end

