-- ==== Sys2Proof/WellFormed.lean ====
section
/-! DEFINITION. Which terms of `Instr` a word of the ports can stand for: a row's field lies in the row's range
(30_encoding.md R63, R64, R71). -/

namespace Sys2Proof

/-- The field of a ranged row lies in that row's range; a row with no ranged field has nothing to check. -/
def Instr.wellFormed : Instr → Bool
  | .decEngineSpeed => true
  | .decMap => true
  | .decMgp => true
  | .decBaro => true
  | .decTps => true
  | .decInjDuty => true
  | .decInjDuty2 => true
  | .decInjPw => true
  | .decEct => true
  | .decIat => true
  | .decBatt => true
  | .decMaf => true
  | .decGear => true
  | .decInjTiming => true
  | .decIgnTiming => true
  | .decCamInL => true
  | .decCamInR => true
  | .decCamExL => true
  | .decCamExR => true
  | .decLambda1 => true
  | .decLambda2 => true
  | .decTrig1Err => true
  | .decFaultCount => true
  | .decFuelPress => true
  | .decOilTemp => true
  | .decOilPress => true
  | .decWsLf => true
  | .decWsLr => true
  | .decWsRf => true
  | .decWsRr => true
  | .decKnock1 => true
  | .decKnock2 => true
  | .decKnock3 => true
  | .decKnock4 => true
  | .decKnock5 => true
  | .decKnock6 => true
  | .decKnock7 => true
  | .decKnock8 => true
  | .decLimiterFlags => true
  | .decUnknown39 => true
  | .decUnknown40to47 tag => decide (40 ≤ tag.toNat) && decide (tag.toNat ≤ 47)
  | .decUnknown48to63 tag => decide (48 ≤ tag.toNat)
  | .wrf0to7 frame _ => decide (frame.toNat ≤ 7)
  | .wrf8to11 frame _ => decide (8 ≤ frame.toNat) && decide (frame.toNat ≤ 11)
  | .wrf12 _ => true
  | .wrfIgnored13 _ => true
  | .wrfIgnored14to15 frame _ => decide (14 ≤ frame.toNat)

end Sys2Proof
end

