-- ==== Sys2Proof/Decode.lean ====
section
/-! DEFINITION. From port words to transactions and back (30_encoding.md R60 to R71). Every word of either port has a
meaning, so `decode` is total with no refusal (R68); only a byte string that is no port word is refused, by name. -/

namespace Sys2Proof

/-! ### The decoder -/

/-- The known decodes in the order of their tags (30_encoding.md R61), frame by frame, three words to a frame (R62). -/
def knownDecodes : List Instr :=
  [.decEngineSpeed, .decMap, .decMgp] ++
  [.decBaro, .decTps, .decInjDuty] ++
  [.decInjDuty2, .decInjPw, .decEct] ++
  [.decIat, .decBatt, .decMaf] ++
  [.decGear, .decInjTiming, .decIgnTiming] ++
  [.decCamInL, .decCamInR, .decCamExL] ++
  [.decCamExR, .decLambda1, .decLambda2] ++
  [.decTrig1Err, .decFaultCount, .decFuelPress] ++
  [.decOilTemp, .decOilPress, .decWsLf] ++
  [.decWsLr, .decWsRf, .decWsRr] ++
  [.decKnock1, .decKnock2, .decKnock3] ++
  [.decKnock4, .decKnock5, .decKnock6] ++
  [.decKnock7, .decKnock8, .decLimiterFlags]

/-- Format D (R60): the tag selects a known parameter (R61) or is one of the unknown codes 39 to 63 (R63). -/
def decodeTag (tag : Tag) : Instr :=
  match knownDecodes[tag.toNat]? with
  | some i => i
  | none =>
    if tag.toNat ≤ 39 then .decUnknown39
    else if tag.toNat ≤ 47 then .decUnknown40to47 tag
    else .decUnknown48to63 tag

/-- The frame index of a format W word, bits 67:64 (R60). -/
def frameField (bits : BitVec 68) : FrameIx := bits.extractLsb' 64 4

/-- The eight octets of a format W word, bits 63:0 (R60). -/
def dataField (bits : BitVec 68) : FrameData := bits.extractLsb' 0 64

/-- Format W (R60): the frame index selects a frame (0 to 12) or none (13 to 15) (R64). -/
def decodeWrite (bits : BitVec 68) : Instr :=
  if (frameField bits).toNat ≤ 7 then .wrf0to7 (frameField bits) (dataField bits)
  else if (frameField bits).toNat ≤ 11 then .wrf8to11 (frameField bits) (dataField bits)
  else if (frameField bits).toNat ≤ 12 then .wrf12 (dataField bits)
  else if (frameField bits).toNat ≤ 13 then .wrfIgnored13 (dataField bits)
  else .wrfIgnored14to15 (frameField bits) (dataField bits)

/-- The transaction a port word stands for; which format it has is given by its port (R67). -/
def decode : PortWord → Instr
  | .decode tag => decodeTag tag
  | .write bits => decodeWrite bits

/-! ### The encoder -/

/-- The word of format W (R60, R70): `frame ++ data`. -/
def writeWord (frame : FrameIx) (data : FrameData) : PortWord := .write (frame ++ data)

/-- The port word of a transaction, from the tag assignment of R61 and the formats of R60. -/
def encode : Instr → PortWord
  | .decEngineSpeed => .decode 0b000000#6
  | .decMap => .decode 0b000001#6
  | .decMgp => .decode 0b000010#6
  | .decBaro => .decode 0b000011#6
  | .decTps => .decode 0b000100#6
  | .decInjDuty => .decode 0b000101#6
  | .decInjDuty2 => .decode 0b000110#6
  | .decInjPw => .decode 0b000111#6
  | .decEct => .decode 0b001000#6
  | .decIat => .decode 0b001001#6
  | .decBatt => .decode 0b001010#6
  | .decMaf => .decode 0b001011#6
  | .decGear => .decode 0b001100#6
  | .decInjTiming => .decode 0b001101#6
  | .decIgnTiming => .decode 0b001110#6
  | .decCamInL => .decode 0b001111#6
  | .decCamInR => .decode 0b010000#6
  | .decCamExL => .decode 0b010001#6
  | .decCamExR => .decode 0b010010#6
  | .decLambda1 => .decode 0b010011#6
  | .decLambda2 => .decode 0b010100#6
  | .decTrig1Err => .decode 0b010101#6
  | .decFaultCount => .decode 0b010110#6
  | .decFuelPress => .decode 0b010111#6
  | .decOilTemp => .decode 0b011000#6
  | .decOilPress => .decode 0b011001#6
  | .decWsLf => .decode 0b011010#6
  | .decWsLr => .decode 0b011011#6
  | .decWsRf => .decode 0b011100#6
  | .decWsRr => .decode 0b011101#6
  | .decKnock1 => .decode 0b011110#6
  | .decKnock2 => .decode 0b011111#6
  | .decKnock3 => .decode 0b100000#6
  | .decKnock4 => .decode 0b100001#6
  | .decKnock5 => .decode 0b100010#6
  | .decKnock6 => .decode 0b100011#6
  | .decKnock7 => .decode 0b100100#6
  | .decKnock8 => .decode 0b100101#6
  | .decLimiterFlags => .decode 0b100110#6
  | .decUnknown39 => .decode 0b100111#6
  | .decUnknown40to47 tag => .decode tag
  | .decUnknown48to63 tag => .decode tag
  | .wrf0to7 frame data => writeWord frame data
  | .wrf8to11 frame data => writeWord frame data
  | .wrf12 data => writeWord 0b1100#4 data
  | .wrfIgnored13 data => writeWord 0b1101#4 data
  | .wrfIgnored14to15 frame data => writeWord frame data

/-! ### The opcode map -/

/-- One row of the opcode map (R71): a word of the row's port matches when `(value & mask) = pattern`. -/
structure OpcodeRow where
  port : Port
  mask : Nat
  pattern : Nat
deriving DecidableEq, Repr

/-- The rows of the opcode map in the order of spec/opcode_table.json (R71): the 39 known tags, the unknown tags
`100111`, `101xxx`, `11xxxx`, the frame fields `0fff`, `10ff`, `1100`, and the ignored frame fields `1101`, `111f`. -/
def opcodeRows : List OpcodeRow :=
  (List.range 39).map (fun tag => ⟨.decode, 0x3F, tag⟩) ++
  [⟨.decode, 0x3F, 0x27⟩, ⟨.decode, 0x38, 0x28⟩, ⟨.decode, 0x30, 0x30⟩] ++
  [⟨.write, 0x80000000000000000, 0x00000000000000000⟩, ⟨.write, 0xC0000000000000000, 0x80000000000000000⟩,
   ⟨.write, 0xF0000000000000000, 0xC0000000000000000⟩] ++
  [⟨.write, 0xF0000000000000000, 0xD0000000000000000⟩, ⟨.write, 0xE0000000000000000, 0xE0000000000000000⟩]

/-- Whether a port word matches a row of the opcode map (R71). -/
def OpcodeRow.hits (row : OpcodeRow) (word : PortWord) : Bool :=
  decide (row.port = word.port) && decide (word.value &&& row.mask = row.pattern)

/-- The place of a transaction's row in the opcode map, counted from 0. -/
def Instr.row : Instr → Nat
  | .decEngineSpeed => 0
  | .decMap => 1
  | .decMgp => 2
  | .decBaro => 3
  | .decTps => 4
  | .decInjDuty => 5
  | .decInjDuty2 => 6
  | .decInjPw => 7
  | .decEct => 8
  | .decIat => 9
  | .decBatt => 10
  | .decMaf => 11
  | .decGear => 12
  | .decInjTiming => 13
  | .decIgnTiming => 14
  | .decCamInL => 15
  | .decCamInR => 16
  | .decCamExL => 17
  | .decCamExR => 18
  | .decLambda1 => 19
  | .decLambda2 => 20
  | .decTrig1Err => 21
  | .decFaultCount => 22
  | .decFuelPress => 23
  | .decOilTemp => 24
  | .decOilPress => 25
  | .decWsLf => 26
  | .decWsLr => 27
  | .decWsRf => 28
  | .decWsRr => 29
  | .decKnock1 => 30
  | .decKnock2 => 31
  | .decKnock3 => 32
  | .decKnock4 => 33
  | .decKnock5 => 34
  | .decKnock6 => 35
  | .decKnock7 => 36
  | .decKnock8 => 37
  | .decLimiterFlags => 38
  | .decUnknown39 => 39
  | .decUnknown40to47 _ => 40
  | .decUnknown48to63 _ => 41
  | .wrf0to7 _ _ => 42
  | .wrf8to11 _ _ => 43
  | .wrf12 _ => 44
  | .wrfIgnored13 _ => 45
  | .wrfIgnored14to15 _ _ => 46

/-! ### Byte strings and the host's words

DESIGN CHOICE (log entry 11): the ports carry 6 and 68 bits, not bytes (R60). A word laid out in whole bytes has its
least significant byte first and zeros above its last bit: one byte for format D, nine for format W. -/

/-- Why a byte string is no port word. -/
inductive DecodeError where
  /-- Neither one byte (format D) nor nine (format W). -/
  | badLength (bytes : Nat)
  /-- A bit above the format's last bit is not zero. -/
  | paddingNotZero
deriving DecidableEq, Repr

/-- The number a byte string stands for, least significant byte first. -/
def leValue : List Byte → Nat
  | [] => 0
  | b :: bs => b.toNat + 256 * leValue bs

/-- The port word a byte string lays out, or the reason why it lays out none. -/
def portWordOfBytes (bytes : List Byte) : Except DecodeError PortWord :=
  if bytes.length = 1 then
    if leValue bytes < 2 ^ 6 then .ok (.decode (BitVec.ofNat 6 (leValue bytes))) else .error .paddingNotZero
  else if bytes.length = 9 then
    if leValue bytes < 2 ^ 68 then .ok (.write (BitVec.ofNat 68 (leValue bytes))) else .error .paddingNotZero
  else .error (.badLength bytes.length)

/-- Decoding any byte string: the transaction of the port word it lays out, or a named refusal. -/
def decodeBytes (bytes : List Byte) : Except DecodeError Instr :=
  (portWordOfBytes bytes).map decode

/-- `count` bytes of a number, least significant first. -/
def leBytes : Nat → Nat → List Byte
  | 0, _ => []
  | count + 1, value => BitVec.ofNat 8 value :: leBytes count (value / 256)

/-- The bytes of a port word. -/
def PortWord.bytes : PortWord → List Byte
  | .decode tag => leBytes 1 tag.toNat
  | .write bits => leBytes 9 bits.toNat

/-- The bytes of a word of the opcode map whose bits are `value`: format D's rows have at most 8 bits in whole bytes,
format W's are laid out in nine bytes, the bits above `nbits` zero. A value with more bits than its bytes hold is none. -/
def bytesOfTableWord (nbits value : Nat) : List Byte :=
  if nbits ≤ 8 then (if value < 2 ^ 8 then leBytes 1 value else [])
  else (if value < 2 ^ 72 then leBytes 9 value else [])

/-- The transaction this decoder reads from a word of the opcode map. -/
def decodeTableWord (nbits w : Nat) : Option Instr :=
  (decodeBytes (bytesOfTableWord nbits w)).toOption

end Sys2Proof
end

