-- ==== Sys2Proof/Config.lean ====
section
/-! DEFINITION. What a block instance fixes (00_scope.md R6; 10_state.md R28) and the free values: constants with no
body, so that a claim holds whatever they are. The descriptor table DESC is in Machine/Operands.lean. -/

namespace Sys2Proof

/-- `FLOAT_FORMAT` (00_scope.md R6): the spec leaves it open and names binary32 and binary64 (40_decode_datapath.md R87). -/
inductive FloatFormat where
  | binary32
  | binary64
  /-- Any other format. -/
  | other (id : Nat)
deriving DecidableEq, Repr, Inhabited

/-- What a floating-point result denotes, in whatever format: a finite number, negative zero, an infinity or no number.
DESIGN CHOICE (log entry 4): the spec speaks of float results only through the numbers they denote (R87). -/
inductive FloatValue where
  | finite (q : Rat)
  | negZero
  | infinite (negative : Bool)
  | nan
deriving DecidableEq, Repr, Inhabited

namespace Config

/-- `NUM_FRAMES` (R6). -/
def numFrames : Nat := 13

/-- `FRAME_BYTES` (R6). -/
def frameBytes : Nat := 8

/-- `FB_BYTES` (R6): the size of the one address space (20_memory.md R40). -/
def fbBytes : Nat := 104

/-- `FB_INIT` (10_state.md R33): the octet at an address before it is written, per draw. Free (log entries 1 and 2). -/
opaque fbInit : (draw : Nat) → (address : Nat) → Byte

/-- `STORE_HEADER_BYTES` (R6; 10_state.md R33). Free (log entry 3). -/
opaque storeHeaderBytes : Bool

/-- `FLOAT_FORMAT` (R6). Free (log entry 4). -/
opaque floatFormat : FloatFormat

/-- `FLOAT_CONV` where the spec leaves it open (40_decode_datapath.md R87). Free (log entry 4). -/
opaque floatOpen : FloatFormat → MWord → DpWord → FloatValue

/-- Whether the write goes first when a decode and a write are accepted in the same cycle (20_memory.md R51). Free for
each such pair (log entry 8). -/
opaque writeFirst : (race : Nat) → Bool

end Config

end Sys2Proof
end

