-- ==== Sys2Proof/Machine/State.lean ====
section
/-! DEFINITION. The machine's state as plain data, and its value right after reset. -/

namespace Sys2Proof.Machine

/-- A part of the frame buffer: the octets written since the last reset, by linear address `8*f + b` (20_memory.md R40),
addresses strictly rising. What an unlisted octet reads as is `State.octet`'s (Machine/Ops.lean; log entry 1). -/
abbrev Memory := List Host.Cell

/-- Addresses strictly rising from `low` on, and none outside the address space. -/
def Memory.risesFrom (low : Nat) : Memory → Bool
  | [] => true
  | cell :: cells =>
    decide (low ≤ cell.1) && decide (cell.1 < Config.fbBytes) && Memory.risesFrom (cell.1 + 1) cells

/-- The canonical form: addresses strictly rising, all of them inside the 104 octets (20_memory.md R40). -/
def Memory.wf (m : Memory) : Bool := Memory.risesFrom 0 m

/-- The answer to one decode (00_scope.md R9; 40_decode_datapath.md R80). DESIGN CHOICE (log entry 15): 30_encoding.md
R60 counts "39 bits plus the float" for format R and lists fields of 32, 2 and 1 bits, which are 35; the model has the
listed fields and no other bit. -/
structure Result where
  m : MWord
  dp : DpWord
  unk : Bool
  fval : FloatValue
deriving DecidableEq, Repr

/-- What can happen next at the block's boundary (70_reset_and_hazards.md R187, R188). -/
inductive Event where
  /-- One transaction is accepted (20_memory.md R49). -/
  | port (word : PortWord)
  /-- A decode and a frame write are accepted in the same cycle (20_memory.md R51). -/
  | sameCycle (tag : Tag) (bits : BitVec 68)
  /-- The datapath returns its oldest result (70_reset_and_hazards.md R186). -/
  | deliver
  /-- Reset (70_reset_and_hazards.md R180). -/
  | reset
deriving DecidableEq, Repr

/-- The state. `fb` and `inFlight` are the block's (10_state.md R20, R31); the others are the model's own: the host's
side of the ports and the counters of the free values (log entries 2, 5, 6 and 8). -/
structure State where
  /-- The frame buffer: the octets written since the last reset (10_state.md R21). -/
  fb : Memory
  /-- Results of accepted decodes that have not been returned yet, oldest first (70_reset_and_hazards.md R186). -/
  inFlight : List Result
  /-- Results returned to the host, oldest first. -/
  answers : List Result
  /-- The host's coming events, in the order the block accepts them (20_memory.md R49). -/
  pending : List Event
  /-- Which draw of `FB_INIT` the unwritten octets hold (10_state.md R33). -/
  draw : Nat
  /-- How many same-cycle pairs have been ordered (20_memory.md R51). -/
  races : Nat
deriving DecidableEq, Repr

/-- Why the machine stops with a fault: never. "The block raises no exception, trap or fault" (60_exceptions.md R160), so
this type has no constructor (log entry 9). -/
inductive Fault where
deriving DecidableEq, Repr

/-- Why the machine has no meaning for a transaction. -/
inductive Refusal where
  /-- Raised by an arm of Dispatch.lean that has no meaning yet; a refusal is safe. No arm raises it: every transaction
  of the opcode map has its meaning. -/
  | notModelled (mnemonic : String)
deriving DecidableEq, Repr

/-- The machine right after reset (10_state.md R34; 70_reset_and_hazards.md R180, R181): every octet of FB is a draw of
`FB_INIT`, so none is listed, and nothing is in flight. The model's own fields start empty and at 0: DESIGN CHOICE (log
entries 2, 5, 6 and 8). -/
def State.reset : State :=
  { fb := [], inFlight := [], answers := [], pending := [], draw := 0, races := 0 }

end Sys2Proof.Machine
end

