-- ==== Sys2Proof/Machine/Operands.lean ====
section
/-! DEFINITION. The operands of a decode: a request carries only a tag, and everything else comes from the descriptor
table DESC (30_encoding.md R65, R66; 10_state.md R29). -/

namespace Sys2Proof.Machine

/-- The nine transform kinds (30_encoding.md R65), kind ids 0 to 8 in this order. -/
inductive Kind where
  | ident | ofsM100 | ofsM50 | scl01 | scl001 | scl0001 | scl5 | sclN01 | scl01OfsM100
deriving DecidableEq, Repr

/-- The multiplier of a kind (R65). -/
def Kind.k : Kind → Int
  | .ident => 1
  | .ofsM100 => 1
  | .ofsM50 => 1
  | .scl01 => 1
  | .scl001 => 1
  | .scl0001 => 1
  | .scl5 => 5
  | .sclN01 => -1
  | .scl01OfsM100 => 1

/-- The additive constant of a kind (R65). -/
def Kind.c : Kind → Int
  | .ident => 0
  | .ofsM100 => -100
  | .ofsM50 => -50
  | .scl01 => 0
  | .scl001 => 0
  | .scl0001 => 0
  | .scl5 => 0
  | .sclN01 => 0
  | .scl01OfsM100 => -1000

/-- The decimal-place count of a kind (R65). -/
def Kind.dp : Kind → DpWord
  | .ident => 0
  | .ofsM100 => 0
  | .ofsM50 => 0
  | .scl01 => 1
  | .scl001 => 2
  | .scl0001 => 3
  | .scl5 => 0
  | .sclN01 => 1
  | .scl01OfsM100 => 1

/-- A descriptor (10_state.md R29): the frame, the byte offset of the word's low byte, and the transform kind, which
gives `k`, `c` and `dp` (R65). -/
structure Descriptor where
  frame : Fin 13
  offset : Fin 8
  kind : Kind
deriving DecidableEq, Repr

/-- The linear address of the word's low byte (20_memory.md R40, R41). -/
def Descriptor.addr (d : Descriptor) : Nat := 8 * d.frame.val + d.offset.val

/-- DESC, one row per known tag (30_encoding.md R66). UNVERIFIED (log entry 10): the source's literals are unaudited. -/
def descTable : List Descriptor :=
  [⟨0, 2, .ident⟩, ⟨0, 4, .ident⟩, ⟨0, 6, .ofsM100⟩] ++
  [⟨1, 2, .scl01⟩, ⟨1, 4, .scl01⟩, ⟨1, 6, .scl01⟩] ++
  [⟨2, 2, .scl01⟩, ⟨2, 4, .scl0001⟩, ⟨2, 6, .ofsM50⟩] ++
  [⟨3, 2, .ofsM50⟩, ⟨3, 4, .scl001⟩, ⟨3, 6, .scl01⟩] ++
  [⟨4, 2, .ident⟩, ⟨4, 4, .ident⟩, ⟨4, 6, .scl01OfsM100⟩] ++
  [⟨5, 2, .scl01⟩, ⟨5, 4, .scl01⟩, ⟨5, 6, .sclN01⟩] ++
  [⟨6, 2, .sclN01⟩, ⟨6, 4, .scl0001⟩, ⟨6, 6, .scl0001⟩] ++
  [⟨7, 2, .ident⟩, ⟨7, 4, .ident⟩, ⟨7, 6, .ident⟩] ++
  [⟨8, 2, .ofsM50⟩, ⟨8, 4, .ident⟩, ⟨8, 6, .scl01⟩] ++
  [⟨9, 2, .scl01⟩, ⟨9, 4, .scl01⟩, ⟨9, 6, .scl01⟩] ++
  [⟨10, 2, .scl5⟩, ⟨10, 4, .scl5⟩, ⟨10, 6, .scl5⟩] ++
  [⟨11, 2, .scl5⟩, ⟨11, 4, .scl5⟩, ⟨11, 6, .scl5⟩] ++
  [⟨12, 2, .scl5⟩, ⟨12, 4, .scl5⟩, ⟨12, 6, .ident⟩]

/-- The parameter-indexed mux (40_decode_datapath.md R81): the descriptor of a known tag; an unknown tag has none. -/
def desc? (tag : Tag) : Option Descriptor := descTable[tag.toNat]?

end Sys2Proof.Machine
end

