-- ==== Sys2Proof/Machine/Flags.lean ====
section
/-! DEFINITION. The result fields that are not the mantissa: the decimal point, the unknown bit and the float rendering
(40_decode_datapath.md R85 to R87; 10_state.md R27), and what a host computes from a result (00_scope.md R9; R140). There
is no persistent flag (10_state.md R27). -/

namespace Sys2Proof.Machine

/-- The unknown-parameter bit (40_decode_datapath.md R80, R81): set exactly for a tag with no descriptor. -/
def unkBit (tag : Tag) : Bool := decide (38 < tag.toNat)

/-- The values of `FLOAT_CONV` that R87 item 2 names at `dp > 0`, as `(m, dp, value)`. -/
def namedFloats : List (Int × Nat × Rat) :=
  [(1000, 1, 100), (1000, 3, 1), (-10, 1, -1), (-1000, 1, -100)]

/-- `FLOAT_CONV` (40_decode_datapath.md R87): exact at `dp = 0` in the range of every result, the source's own values
where R87 names them, and free everywhere else (log entry 4). -/
def floatConv (m : MWord) (dp : DpWord) : FloatValue :=
  if dp = 0 ∧ -163840 ≤ m.toInt ∧ m.toInt ≤ 163835 then .finite (Rat.ofInt m.toInt)
  else
    match namedFloats.find? (fun p => decide (p.1 = m.toInt) && decide (p.2.1 = dp.toNat)) with
    | some p => .finite p.2.2
    | none => Config.floatOpen Config.floatFormat m dp

/-- The exact value of a result, `m / 10^dp` (00_scope.md R9). -/
def Result.exact (r : Result) : Rat := (r.m.toInt : Rat) / (10 : Rat) ^ r.dp.toNat

/-- The host's extraction of limiter flag `i`, `(m >> i) & 1` with an arithmetic shift (41_decode_parameters.md R140). -/
def limiterFlag (m : MWord) (i : Nat) : Bool := decide ((m.sshiftRight i) &&& 1 = 1)

end Sys2Proof.Machine
end

