-- ==== Sys2Proof/Machine/Ops.lean ====
section
/-! DEFINITION. The named operations over the frame buffer, the datapath and the ports. There is no register to read or
write (10_state.md R25 to R28) and no exception to take or to return from (60_exceptions.md R164): an unknown tag is
answered by the sentinel (R160). -/

namespace Sys2Proof.Machine

/-! ### The frame buffer -/

/-- The octet listed at an address; none where nothing has been written since the last reset. -/
def Memory.load (m : Memory) (a : Nat) : Option Byte :=
  match m with
  | [] => none
  | cell :: cells => if cell.1 = a then some cell.2 else Memory.load cells a

/-- Storing one octet, the addresses still rising. -/
def Memory.store (m : Memory) (a : Nat) (b : Byte) : Memory :=
  match m with
  | [] => [(a, b)]
  | cell :: cells =>
    if cell.1 < a then cell :: Memory.store cells a b
    else if cell.1 = a then (a, b) :: cells
    else (a, b) :: cell :: cells

/-- Storing octets at rising addresses from `a` on: `MemWrite` (00_scope.md R8). -/
def Memory.storeAll (m : Memory) (a : Nat) : List Byte → Memory
  | [] => m
  | b :: bs => Memory.storeAll (m.store a b) (a + 1) bs

/-- Whether an address is a header octet, byte 0 or 1 of its frame, that this block does not store (10_state.md R22,
R33). -/
def headerDropped (a : Nat) : Bool := decide (a % 8 < 2) && !Config.storeHeaderBytes

/-- `FB[a]` (00_scope.md R8): the octet last written there since reset, and `FB_INIT` where none was written or the
block does not store it (10_state.md R33). The address space ends at 104 (20_memory.md R40); no transaction reaches
beyond it (R41). -/
def State.octet (s : State) (a : Nat) : Byte :=
  if headerDropped a then Config.fbInit s.draw a else (s.fb.load a).getD (Config.fbInit s.draw a)

/-- `MemRead(a, 2)` (20_memory.md R42): two octets, low byte first; both from the same FB (R45). -/
def State.readWord (s : State) (a : Nat) : RawWord := s.octet (a + 1) ++ s.octet a

/-- Octet `i` of a frame write's data, `data[8*i+7 : 8*i]` (30_encoding.md R60). -/
def dataOctet (data : FrameData) (i : Nat) : Byte := data.extractLsb' (8 * i) 8

/-- The eight octets of a frame write's data, byte 0 first (30_encoding.md R60). -/
def dataOctets (data : FrameData) : List Byte := (List.range Config.frameBytes).map (dataOctet data)

/-- The first address of a frame (20_memory.md R40, R41). -/
def frameAddr (frame : FrameIx) : Nat := 8 * frame.toNat

/-- A frame write (42_frame_write.md R150, R151): all eight octets of a frame in one step; an index of no frame changes
nothing. -/
def State.writeFrame (s : State) (frame : FrameIx) (data : FrameData) : State :=
  if frame.toNat < Config.numFrames then { s with fb := s.fb.storeAll (frameAddr frame) (dataOctets data) } else s

/-! ### The decode datapath -/

/-- Sign extension (40_decode_datapath.md R83). -/
def signExtend (raw16 : RawWord) : MWord := raw16.signExtend 32

/-- Multiply-accumulate (40_decode_datapath.md R84): exact on integers, delivered in 32 bits. -/
def multiplyAdd (kind : Kind) (raw : MWord) : MWord := BitVec.ofInt 32 (kind.k * raw.toInt + kind.c)

/-- Stages S3 to S6 of a known decode (40_decode_datapath.md R80, R83 to R87). -/
def transform (kind : Kind) (raw16 : RawWord) : Result :=
  { m := multiplyAdd kind (signExtend raw16), dp := kind.dp, unk := false,
    fval := floatConv (multiplyAdd kind (signExtend raw16)) kind.dp }

/-- The answer to an unknown tag (41_decode_parameters.md R139). -/
def sentinel : Result :=
  { m := 0xFFFFFFFF#32, dp := 0, unk := true, fval := floatConv 0xFFFFFFFF#32 0 }

/-- `DEC tag` (40_decode_datapath.md R80): select, assemble, transform; the sentinel where there is no descriptor. -/
def State.decodeResult (s : State) (tag : Tag) : Result :=
  if unkBit tag then sentinel
  else
    match desc? tag with
    | some d => transform d.kind (s.readWord d.addr)
    | none => sentinel

/-! ### Results on their way to the host -/

/-- An accepted decode's result joins the results in flight, after those accepted before it (70_reset_and_hazards.md
R186). -/
def State.issue (s : State) (r : Result) : State := { s with inFlight := s.inFlight ++ [r] }

/-- The datapath returns its oldest result (70_reset_and_hazards.md R186); with none in flight nothing happens. -/
def State.deliverOldest (s : State) : State :=
  match s.inFlight with
  | [] => s
  | r :: rest => { s with inFlight := rest, answers := s.answers ++ [r] }

/-- Reset (70_reset_and_hazards.md R180; 10_state.md R33): every octet takes a draw of `FB_INIT`, and what is in flight
is abandoned without a result. What the host has been answered and what it does next are the host's. -/
def State.hostReset (s : State) : State := { s with fb := [], draw := s.draw + 1, inFlight := [] }

/-! ### The order of acceptance -/

/-- What the next step does: run a transaction, or something that is no transaction. -/
inductive Action where
  | run (i : Instr) (s : State)
  | quiet (s : State)
deriving DecidableEq, Repr

/-- The next event, taken from the list of pending ones (20_memory.md R49; 70_reset_and_hazards.md R188). A same-cycle
pair is accepted in one of its two orders, the other half staying first in line (20_memory.md R51; log entry 8). With
nothing pending the block returns results still in flight (R186; log entry 7) and otherwise idles (R187, R188). -/
def nextAction (s : State) : Action :=
  match s.pending with
  | [] => .quiet s.deliverOldest
  | .port word :: rest => .run (decode word) { s with pending := rest }
  | .sameCycle tag bits :: rest =>
    if Config.writeFirst s.races then
      .run (decodeWrite bits) { s with pending := .port (.decode tag) :: rest, races := s.races + 1 }
    else
      .run (decodeTag tag) { s with pending := .port (.write bits) :: rest, races := s.races + 1 }
  | .deliver :: rest => .quiet (State.deliverOldest { s with pending := rest })
  | .reset :: rest => .quiet (State.hostReset { s with pending := rest })

/-- Placing the bytes of a transaction first in line; bytes that are no port word cannot stand on a port. -/
def placeFirst (s : State) (bytes : List Byte) : State :=
  match portWordOfBytes bytes with
  | .ok word => { s with pending := .port word :: s.pending }
  | .error _ => s

end Sys2Proof.Machine
end

