-- ==== Sys2Proof/Machine/Decodes.lean ====
section
/-! DEFINITION. The meanings of the decode transactions (41_decode_parameters.md R100 to R139). Each known tag is an
instance of 40_decode_datapath.md R80 with its own tag; an unknown tag returns the sentinel. No decode writes state:
its result joins the results on their way to the host. -/

namespace Sys2Proof.Machine

/-- R100: `DEC ENGINE_SPEED`, tag 0. -/
def execDecEngineSpeed (s : State) : Host.Outcome State Fault Refusal :=
  .next (s.issue (s.decodeResult 0b000000#6))

/-- R101: `DEC MAP`, tag 1. -/
def execDecMap (s : State) : Host.Outcome State Fault Refusal :=
  .next (s.issue (s.decodeResult 0b000001#6))

/-- R102: `DEC MGP`, tag 2. -/
def execDecMgp (s : State) : Host.Outcome State Fault Refusal :=
  .next (s.issue (s.decodeResult 0b000010#6))

/-- R103: `DEC BARO`, tag 3. -/
def execDecBaro (s : State) : Host.Outcome State Fault Refusal :=
  .next (s.issue (s.decodeResult 0b000011#6))

/-- R104: `DEC TPS`, tag 4. -/
def execDecTps (s : State) : Host.Outcome State Fault Refusal :=
  .next (s.issue (s.decodeResult 0b000100#6))

/-- R105: `DEC INJ_DUTY`, tag 5. -/
def execDecInjDuty (s : State) : Host.Outcome State Fault Refusal :=
  .next (s.issue (s.decodeResult 0b000101#6))

/-- R106: `DEC INJ_DUTY_2`, tag 6. -/
def execDecInjDuty2 (s : State) : Host.Outcome State Fault Refusal :=
  .next (s.issue (s.decodeResult 0b000110#6))

/-- R107: `DEC INJ_PW`, tag 7. -/
def execDecInjPw (s : State) : Host.Outcome State Fault Refusal :=
  .next (s.issue (s.decodeResult 0b000111#6))

/-- R108: `DEC ECT`, tag 8. -/
def execDecEct (s : State) : Host.Outcome State Fault Refusal :=
  .next (s.issue (s.decodeResult 0b001000#6))

/-- R109: `DEC IAT`, tag 9. -/
def execDecIat (s : State) : Host.Outcome State Fault Refusal :=
  .next (s.issue (s.decodeResult 0b001001#6))

/-- R110: `DEC BATT`, tag 10. -/
def execDecBatt (s : State) : Host.Outcome State Fault Refusal :=
  .next (s.issue (s.decodeResult 0b001010#6))

/-- R111: `DEC MAF`, tag 11. -/
def execDecMaf (s : State) : Host.Outcome State Fault Refusal :=
  .next (s.issue (s.decodeResult 0b001011#6))

/-- R112: `DEC GEAR`, tag 12. -/
def execDecGear (s : State) : Host.Outcome State Fault Refusal :=
  .next (s.issue (s.decodeResult 0b001100#6))

/-- R113: `DEC INJ_TIMING`, tag 13. -/
def execDecInjTiming (s : State) : Host.Outcome State Fault Refusal :=
  .next (s.issue (s.decodeResult 0b001101#6))

/-- R114: `DEC IGN_TIMING`, tag 14. -/
def execDecIgnTiming (s : State) : Host.Outcome State Fault Refusal :=
  .next (s.issue (s.decodeResult 0b001110#6))

/-- R115: `DEC CAM_IN_L`, tag 15. -/
def execDecCamInL (s : State) : Host.Outcome State Fault Refusal :=
  .next (s.issue (s.decodeResult 0b001111#6))

/-- R116: `DEC CAM_IN_R`, tag 16. -/
def execDecCamInR (s : State) : Host.Outcome State Fault Refusal :=
  .next (s.issue (s.decodeResult 0b010000#6))

/-- R117: `DEC CAM_EX_L`, tag 17. -/
def execDecCamExL (s : State) : Host.Outcome State Fault Refusal :=
  .next (s.issue (s.decodeResult 0b010001#6))

/-- R118: `DEC CAM_EX_R`, tag 18. -/
def execDecCamExR (s : State) : Host.Outcome State Fault Refusal :=
  .next (s.issue (s.decodeResult 0b010010#6))

/-- R119: `DEC LAMBDA1`, tag 19. -/
def execDecLambda1 (s : State) : Host.Outcome State Fault Refusal :=
  .next (s.issue (s.decodeResult 0b010011#6))

/-- R120: `DEC LAMBDA2`, tag 20. -/
def execDecLambda2 (s : State) : Host.Outcome State Fault Refusal :=
  .next (s.issue (s.decodeResult 0b010100#6))

/-- R121: `DEC TRIG1_ERR`, tag 21. -/
def execDecTrig1Err (s : State) : Host.Outcome State Fault Refusal :=
  .next (s.issue (s.decodeResult 0b010101#6))

/-- R122: `DEC FAULT_COUNT`, tag 22. -/
def execDecFaultCount (s : State) : Host.Outcome State Fault Refusal :=
  .next (s.issue (s.decodeResult 0b010110#6))

/-- R123: `DEC FUEL_PRESS`, tag 23. -/
def execDecFuelPress (s : State) : Host.Outcome State Fault Refusal :=
  .next (s.issue (s.decodeResult 0b010111#6))

/-- R124: `DEC OIL_TEMP`, tag 24. -/
def execDecOilTemp (s : State) : Host.Outcome State Fault Refusal :=
  .next (s.issue (s.decodeResult 0b011000#6))

/-- R125: `DEC OIL_PRESS`, tag 25. -/
def execDecOilPress (s : State) : Host.Outcome State Fault Refusal :=
  .next (s.issue (s.decodeResult 0b011001#6))

/-- R126: `DEC WS_LF`, tag 26. -/
def execDecWsLf (s : State) : Host.Outcome State Fault Refusal :=
  .next (s.issue (s.decodeResult 0b011010#6))

/-- R127: `DEC WS_LR`, tag 27. -/
def execDecWsLr (s : State) : Host.Outcome State Fault Refusal :=
  .next (s.issue (s.decodeResult 0b011011#6))

/-- R128: `DEC WS_RF`, tag 28. -/
def execDecWsRf (s : State) : Host.Outcome State Fault Refusal :=
  .next (s.issue (s.decodeResult 0b011100#6))

/-- R129: `DEC WS_RR`, tag 29. -/
def execDecWsRr (s : State) : Host.Outcome State Fault Refusal :=
  .next (s.issue (s.decodeResult 0b011101#6))

/-- R130: `DEC KNOCK1`, tag 30. -/
def execDecKnock1 (s : State) : Host.Outcome State Fault Refusal :=
  .next (s.issue (s.decodeResult 0b011110#6))

/-- R131: `DEC KNOCK2`, tag 31. -/
def execDecKnock2 (s : State) : Host.Outcome State Fault Refusal :=
  .next (s.issue (s.decodeResult 0b011111#6))

/-- R132: `DEC KNOCK3`, tag 32. -/
def execDecKnock3 (s : State) : Host.Outcome State Fault Refusal :=
  .next (s.issue (s.decodeResult 0b100000#6))

/-- R133: `DEC KNOCK4`, tag 33. -/
def execDecKnock4 (s : State) : Host.Outcome State Fault Refusal :=
  .next (s.issue (s.decodeResult 0b100001#6))

/-- R134: `DEC KNOCK5`, tag 34. -/
def execDecKnock5 (s : State) : Host.Outcome State Fault Refusal :=
  .next (s.issue (s.decodeResult 0b100010#6))

/-- R135: `DEC KNOCK6`, tag 35. -/
def execDecKnock6 (s : State) : Host.Outcome State Fault Refusal :=
  .next (s.issue (s.decodeResult 0b100011#6))

/-- R136: `DEC KNOCK7`, tag 36. -/
def execDecKnock7 (s : State) : Host.Outcome State Fault Refusal :=
  .next (s.issue (s.decodeResult 0b100100#6))

/-- R137: `DEC KNOCK8`, tag 37. -/
def execDecKnock8 (s : State) : Host.Outcome State Fault Refusal :=
  .next (s.issue (s.decodeResult 0b100101#6))

/-- R138: `DEC LIMITER_FLAGS`, tag 38. -/
def execDecLimiterFlags (s : State) : Host.Outcome State Fault Refusal :=
  .next (s.issue (s.decodeResult 0b100110#6))

/-- R139: `DEC #39`: the sentinel; FB is not read. -/
def execDecUnknown39 (s : State) : Host.Outcome State Fault Refusal :=
  .next (s.issue sentinel)

/-- R139: `DEC #n`, `n` in 40 to 47: the sentinel; FB is not read. -/
def execDecUnknown40to47 (_tag : Tag) (s : State) : Host.Outcome State Fault Refusal :=
  .next (s.issue sentinel)

/-- R139: `DEC #n`, `n` in 48 to 63: the sentinel; FB is not read. -/
def execDecUnknown48to63 (_tag : Tag) (s : State) : Host.Outcome State Fault Refusal :=
  .next (s.issue sentinel)

end Sys2Proof.Machine
end

