-- ==== Sys2Proof/Machine/FrameWrites.lean ====
section
/-! DEFINITION. The meanings of the frame writes (42_frame_write.md R150, R151). -/

namespace Sys2Proof.Machine

/-- R150: `WRF f, …` for `f` in 0 to 7. -/
def execWrf0to7 (frame : FrameIx) (data : FrameData) (s : State) : Host.Outcome State Fault Refusal :=
  .next (s.writeFrame frame data)

/-- R150: `WRF f, …` for `f` in 8 to 11. -/
def execWrf8to11 (frame : FrameIx) (data : FrameData) (s : State) : Host.Outcome State Fault Refusal :=
  .next (s.writeFrame frame data)

/-- R150: `WRF 12, …`. -/
def execWrf12 (data : FrameData) (s : State) : Host.Outcome State Fault Refusal :=
  .next (s.writeFrame 0b1100#4 data)

/-- R151: `WRF 13, …` changes nothing. -/
def execWrfIgnored13 (_data : FrameData) (s : State) : Host.Outcome State Fault Refusal :=
  .next s

/-- R151: `WRF f, …` for `f` in 14 and 15 changes nothing. -/
def execWrfIgnored14to15 (_frame : FrameIx) (_data : FrameData) (s : State) : Host.Outcome State Fault Refusal :=
  .next s

end Sys2Proof.Machine
end

