-- ==== Sys2Proof/Machine/Dispatch.lean ====
section
/-! DEFINITION. One arm per transaction (30_encoding.md R68, R71). -/

namespace Sys2Proof.Machine

def exec (i : Instr) (s : State) : Host.Outcome State Fault Refusal :=
  match i with
  | .decEngineSpeed => Sys2Proof.Machine.execDecEngineSpeed s
  | .decMap => Sys2Proof.Machine.execDecMap s
  | .decMgp => Sys2Proof.Machine.execDecMgp s
  | .decBaro => Sys2Proof.Machine.execDecBaro s
  | .decTps => Sys2Proof.Machine.execDecTps s
  | .decInjDuty => Sys2Proof.Machine.execDecInjDuty s
  | .decInjDuty2 => Sys2Proof.Machine.execDecInjDuty2 s
  | .decInjPw => Sys2Proof.Machine.execDecInjPw s
  | .decEct => Sys2Proof.Machine.execDecEct s
  | .decIat => Sys2Proof.Machine.execDecIat s
  | .decBatt => Sys2Proof.Machine.execDecBatt s
  | .decMaf => Sys2Proof.Machine.execDecMaf s
  | .decGear => Sys2Proof.Machine.execDecGear s
  | .decInjTiming => Sys2Proof.Machine.execDecInjTiming s
  | .decIgnTiming => Sys2Proof.Machine.execDecIgnTiming s
  | .decCamInL => Sys2Proof.Machine.execDecCamInL s
  | .decCamInR => Sys2Proof.Machine.execDecCamInR s
  | .decCamExL => Sys2Proof.Machine.execDecCamExL s
  | .decCamExR => Sys2Proof.Machine.execDecCamExR s
  | .decLambda1 => Sys2Proof.Machine.execDecLambda1 s
  | .decLambda2 => Sys2Proof.Machine.execDecLambda2 s
  | .decTrig1Err => Sys2Proof.Machine.execDecTrig1Err s
  | .decFaultCount => Sys2Proof.Machine.execDecFaultCount s
  | .decFuelPress => Sys2Proof.Machine.execDecFuelPress s
  | .decOilTemp => Sys2Proof.Machine.execDecOilTemp s
  | .decOilPress => Sys2Proof.Machine.execDecOilPress s
  | .decWsLf => Sys2Proof.Machine.execDecWsLf s
  | .decWsLr => Sys2Proof.Machine.execDecWsLr s
  | .decWsRf => Sys2Proof.Machine.execDecWsRf s
  | .decWsRr => Sys2Proof.Machine.execDecWsRr s
  | .decKnock1 => Sys2Proof.Machine.execDecKnock1 s
  | .decKnock2 => Sys2Proof.Machine.execDecKnock2 s
  | .decKnock3 => Sys2Proof.Machine.execDecKnock3 s
  | .decKnock4 => Sys2Proof.Machine.execDecKnock4 s
  | .decKnock5 => Sys2Proof.Machine.execDecKnock5 s
  | .decKnock6 => Sys2Proof.Machine.execDecKnock6 s
  | .decKnock7 => Sys2Proof.Machine.execDecKnock7 s
  | .decKnock8 => Sys2Proof.Machine.execDecKnock8 s
  | .decLimiterFlags => Sys2Proof.Machine.execDecLimiterFlags s
  | .decUnknown39 => Sys2Proof.Machine.execDecUnknown39 s
  | .decUnknown40to47 tag => Sys2Proof.Machine.execDecUnknown40to47 tag s
  | .decUnknown48to63 tag => Sys2Proof.Machine.execDecUnknown48to63 tag s
  | .wrf0to7 frame data => Sys2Proof.Machine.execWrf0to7 frame data s
  | .wrf8to11 frame data => Sys2Proof.Machine.execWrf8to11 frame data s
  | .wrf12 data => Sys2Proof.Machine.execWrf12 data s
  | .wrfIgnored13 data => Sys2Proof.Machine.execWrfIgnored13 data s
  | .wrfIgnored14to15 frame data => Sys2Proof.Machine.execWrfIgnored14to15 frame data s

end Sys2Proof.Machine
end

