-- ==== Sys2Proof/Machine/Step.lean ====
section
/-! DEFINITION. One step: the next event of the total order of acceptance (20_memory.md R49). -/

namespace Sys2Proof.Machine

/-- One step. It runs the next transaction, or returns a result, resets or idles. -/
def step (s : State) : Host.Outcome State Fault Refusal :=
  match nextAction s with
  | .run i s' => exec i s'
  | .quiet s' => .next s'

/-- The state with a word of the opcode map as the next transaction to be accepted (log entry 5). -/
def State.withFetchWord (s : State) (nbits w : Nat) : State := placeFirst s (bytesOfTableWord nbits w)

end Sys2Proof.Machine
end

