-- ==== Sys2Proof/Safety.lean ====
section
/-! DEFINITION. The terms claims are stated in: what a safe state and a safe step are, and the spec's own integer
reading of a word of the frame buffer. -/

namespace Sys2Proof.Machine

/-- `unsigned(MemRead(a, 2))` as the spec computes it: `FB[a] + 256 * FB[a+1]` (20_memory.md R42). -/
def wordAt (s : State) (a : Nat) : Nat := (s.octet a).toNat + 256 * (s.octet (a + 1)).toNat

/-- `signed(raw16) = unsigned(raw16) - 65536 * raw16[15]` (40_decode_datapath.md R83). -/
def signed16 (u : Nat) : Int := (u : Int) - 65536 * (if u.testBit 15 then 1 else 0)

/-- The raw value at an address (00_scope.md R10). -/
def rawAt (s : State) (a : Nat) : Int := signed16 (wordAt s a)

/-- Accepting `i` in `s` completes and answers `r`: the result joins the results on their way to the host, behind those
of the decodes accepted before (70_reset_and_hazards.md R186; log entry 7), and nothing else changes. -/
def Returns (i : Instr) (s : State) (r : Result) : Prop :=
  exec i s = .next { s with inFlight := s.inFlight ++ [r] }

/-- A decode rule of 41_decode_parameters.md (R100 to R138): the tag's word is the transaction's, and in every state it
completes with `m = k*raw + c`, `dp`, `unk = 0` and `fval = FLOAT_CONV(m, dp)` for the raw value at its binding. -/
def DecodesAs (i : Instr) (tag : Tag) (frame offset : Nat) (k c : Int) (dp : Nat) : Prop :=
  decode (.decode tag) = i ∧
  ∀ s : State, ∃ r : Result, Returns i s r ∧ r.m.toInt = k * rawAt s (8 * frame + offset) + c ∧ r.dp.toNat = dp ∧
    r.unk = false ∧ r.fval = floatConv r.m r.dp

/-- The frame write rule (42_frame_write.md R150): the transaction completes, the eight octets from `frameAddr frame` on
read as the data (a header octet that is not stored reads as before), every other octet reads as before, and nothing but
the frame buffer changes. -/
def WritesFrame (i : Instr) (frame : FrameIx) (data : FrameData) : Prop :=
  ∀ s : State, ∃ t : State, exec i s = .next t ∧ t = { s with fb := t.fb } ∧
    ∀ a : Nat, t.octet a =
      if frameAddr frame ≤ a ∧ a < frameAddr frame + 8 then
        if a % 8 < 2 ∧ Config.storeHeaderBytes = false then s.octet a
        else data.extractLsb' (8 * (a - frameAddr frame)) 8
      else s.octet a

/-- What an answer of the block can be: the sentinel, or a transform of some 16-bit raw value, rendered by `FLOAT_CONV`
(40_decode_datapath.md R80, R83, R84; 41_decode_parameters.md R139). -/
def Result.Legal (r : Result) : Prop :=
  r.fval = floatConv r.m r.dp ∧
  ((r.unk = true ∧ r.m.toInt = -1 ∧ r.dp = 0) ∨
   (r.unk = false ∧ ∃ (kind : Kind) (raw : Int), -32768 ≤ raw ∧ raw ≤ 32767 ∧
      r.m.toInt = kind.k * raw + kind.c ∧ r.dp = kind.dp))

/-- The invariant of every step: the frame buffer keeps its canonical form, and every answer, returned or in flight, is
one the block can give. -/
def State.Inv (s : State) : Prop :=
  s.fb.wf = true ∧ ∀ r ∈ s.answers ++ s.inFlight, r.Legal

/-- A safe step: it answers a next state. -/
def SafeStep (s : State) : Prop := ∃ t : State, step s = .next t

/-- How many decode requests an event brings (70_reset_and_hazards.md R187). -/
def Event.requests : Event → Nat
  | .port (.decode _) => 1
  | .port (.write _) => 0
  | .sameCycle _ _ => 1
  | .deliver => 0
  | .reset => 0

/-- Several steps in a row, stopping where a step stops. -/
def steps : Nat → State → Host.Outcome State Fault Refusal
  | 0, s => .next s
  | n + 1, s =>
    match step s with
    | .next t => steps n t
    | .fault r => .fault r
    | .refused r => .refused r

end Sys2Proof.Machine
end

