-- ==== Sys2Proof/Certificates/Slice0/Obligations.lean ====
section
/-! DEFINITION. The statements for the provers. -/

open Sys2Proof Sys2Proof.Machine

/-- Port words written out from the encodings decode to their transactions (30_encoding.md R60, R61, R70). -/
def Obligations.PortWordsReadAsEncoded : Prop :=
  decode (.decode 0b000000#6) = .decEngineSpeed ∧
  decode (.decode 0b001110#6) = .decIgnTiming ∧
  decode (.decode 0b010001#6) = .decCamExL ∧
  decode (.decode 0b100110#6) = .decLimiterFlags ∧
  decode (.decode 0b100111#6) = .decUnknown39 ∧
  decode (.decode 0b101010#6) = .decUnknown40to47 0b101010#6 ∧
  decode (.decode 0b111111#6) = .decUnknown48to63 0b111111#6 ∧
  decode (.write 0x0_00C8_0064_03E8_0000#68) = .wrf0to7 0#4 0x00C8_0064_03E8_0000#64 ∧
  decode (.write 0xD_FFFF_FFFF_FFFF_FFFF#68) = .wrfIgnored13 0xFFFF_FFFF_FFFF_FFFF#64

/-- Decoding an encoded well-formed transaction gives it back (30_encoding.md R60 to R71). -/
def Obligations.DecodeOfEncode : Prop :=
  ∀ i : Instr, i.wellFormed = true → decode (encode i) = i

/-- Every port word has exactly one meaning, and no bit of it is dropped (30_encoding.md R68). -/
def Obligations.EncodeOfDecode : Prop :=
  ∀ word : PortWord, (decode word).wellFormed = true ∧ encode (decode word) = word

/-- Every port word matches the opcode row of the transaction it decodes to and no other row (30_encoding.md R71). -/
def Obligations.EveryWordHitsItsRowAlone : Prop :=
  opcodeRows.length = 47 ∧
  ∀ word : PortWord, (decode word).row < 47 ∧
    ∀ (n : Nat) (row : OpcodeRow), opcodeRows[n]? = some row → (row.hits word = true ↔ n = (decode word).row)

/-- A written WRF word puts octet b_i at byte i of its frame (30_encoding.md R70; 42_frame_write.md R150). -/
def Obligations.WriteWordCarriesEightOctets : Prop :=
  ∀ (frame : FrameIx) (b0 b1 b2 b3 b4 b5 b6 b7 : Byte) (s : State), frame.toNat ≤ 12 →
    ∃ t : State, exec (decode (.write (frame ++ (b7 ++ b6 ++ b5 ++ b4 ++ b3 ++ b2 ++ b1 ++ b0)))) s = .next t ∧
      t.octet (8 * frame.toNat + 2) = b2 ∧ t.octet (8 * frame.toNat + 3) = b3 ∧
      t.octet (8 * frame.toNat + 4) = b4 ∧ t.octet (8 * frame.toNat + 5) = b5 ∧
      t.octet (8 * frame.toNat + 6) = b6 ∧ t.octet (8 * frame.toNat + 7) = b7 ∧
      (Config.storeHeaderBytes = true →
        t.octet (8 * frame.toNat) = b0 ∧ t.octet (8 * frame.toNat + 1) = b1) ∧
      ∀ a : Nat, a / 8 ≠ frame.toNat → t.octet a = s.octet a

/-- The bytes of a transaction decode to it, and other byte strings are refused by name. The byte layout is the
model's choice (log entry 11). -/
def Obligations.ByteStringsReadBack : Prop :=
  (∀ i : Instr, i.wellFormed = true → decodeBytes (encode i).bytes = .ok i) ∧
  (∀ bytes : List Byte, (∃ i : Instr, decodeBytes bytes = .ok i) ↔
    (bytes.length = 1 ∧ leValue bytes < 64) ∨ (bytes.length = 9 ∧ leValue bytes < 2 ^ 68)) ∧
  (∀ bytes : List Byte, bytes.length ≠ 1 → bytes.length ≠ 9 →
    decodeBytes bytes = .error (.badLength bytes.length)) ∧
  (∀ bytes : List Byte, (bytes.length = 1 ∧ 64 ≤ leValue bytes) ∨ (bytes.length = 9 ∧ 2 ^ 68 ≤ leValue bytes) →
    decodeBytes bytes = .error .paddingNotZero)

/-- The bound frame and offset of every known tag are t div 3 and 2 + 2 (t mod 3) (30_encoding.md R62). -/
def Obligations.DescriptorFollowsTheTagFormula : Prop :=
  ∀ tag : Tag, tag.toNat ≤ 38 →
    ∃ d : Descriptor, desc? tag = some d ∧ d.frame.val = tag.toNat / 3 ∧ d.offset.val = 2 + 2 * (tag.toNat % 3)

/-- DEC: select, assemble, sign-extend, multiply-add, decimal point, float rendering (40_decode_datapath.md R80). -/
def Obligations.DecodeFollowsTheDatapath : Prop :=
  ∀ (tag : Tag) (s : State), ∃ r : Result, Returns (decode (.decode tag)) s r ∧
    (38 < tag.toNat → r.m = 0xFFFFFFFF#32 ∧ r.dp = 0 ∧ r.unk = true ∧ r.fval = floatConv r.m r.dp ∧
      r.fval = .finite (-1)) ∧
    (tag.toNat ≤ 38 → ∃ d : Descriptor, desc? tag = some d ∧
      r.m.toInt = d.kind.k * rawAt s (8 * d.frame.val + d.offset.val) + d.kind.c ∧
      r.dp = d.kind.dp ∧ r.unk = false ∧ r.fval = floatConv r.m r.dp)

/-- The nine identity tags return the raw value (41_decode_parameters.md R100, R101, R112, R113, R121, R122, R123,
R125, R138). -/
def Obligations.IdentityTagsDecode : Prop :=
  DecodesAs .decEngineSpeed 0b000000#6 0 2 1 0 0 ∧
  DecodesAs .decMap 0b000001#6 0 4 1 0 0 ∧
  DecodesAs .decGear 0b001100#6 4 2 1 0 0 ∧
  DecodesAs .decInjTiming 0b001101#6 4 4 1 0 0 ∧
  DecodesAs .decTrig1Err 0b010101#6 7 2 1 0 0 ∧
  DecodesAs .decFaultCount 0b010110#6 7 4 1 0 0 ∧
  DecodesAs .decFuelPress 0b010111#6 7 6 1 0 0 ∧
  DecodesAs .decOilPress 0b011001#6 8 4 1 0 0 ∧
  DecodesAs .decLimiterFlags 0b100110#6 12 6 1 0 0

/-- Manifold gauge pressure subtracts 100, the three temperatures subtract 50 (41_decode_parameters.md R102, R108,
R109, R124). -/
def Obligations.OffsetTagsDecode : Prop :=
  DecodesAs .decMgp 0b000010#6 0 6 1 (-100) 0 ∧
  DecodesAs .decEct 0b001000#6 2 6 1 (-50) 0 ∧
  DecodesAs .decIat 0b001001#6 3 2 1 (-50) 0 ∧
  DecodesAs .decOilTemp 0b011000#6 8 2 1 (-50) 0

/-- The eleven x 0.1 tags return the raw value with one decimal place (41_decode_parameters.md R103, R104, R105,
R106, R111, R115, R116, R126, R127, R128, R129). -/
def Obligations.TenthTagsDecode : Prop :=
  DecodesAs .decBaro 0b000011#6 1 2 1 0 1 ∧
  DecodesAs .decTps 0b000100#6 1 4 1 0 1 ∧
  DecodesAs .decInjDuty 0b000101#6 1 6 1 0 1 ∧
  DecodesAs .decInjDuty2 0b000110#6 2 2 1 0 1 ∧
  DecodesAs .decMaf 0b001011#6 3 6 1 0 1 ∧
  DecodesAs .decCamInL 0b001111#6 5 2 1 0 1 ∧
  DecodesAs .decCamInR 0b010000#6 5 4 1 0 1 ∧
  DecodesAs .decWsLf 0b011010#6 8 6 1 0 1 ∧
  DecodesAs .decWsLr 0b011011#6 9 2 1 0 1 ∧
  DecodesAs .decWsRf 0b011100#6 9 4 1 0 1 ∧
  DecodesAs .decWsRr 0b011101#6 9 6 1 0 1

/-- Battery voltage has two decimal places, pulse width and the lambdas three (41_decode_parameters.md R107, R110,
R119, R120). -/
def Obligations.HundredthAndThousandthTagsDecode : Prop :=
  DecodesAs .decInjPw 0b000111#6 2 4 1 0 3 ∧
  DecodesAs .decBatt 0b001010#6 3 4 1 0 2 ∧
  DecodesAs .decLambda1 0b010011#6 6 4 1 0 3 ∧
  DecodesAs .decLambda2 0b010100#6 6 6 1 0 3

/-- The eight knock levels return five times the raw value (41_decode_parameters.md R130, R131, R132, R133, R134,
R135, R136, R137). -/
def Obligations.KnockTagsDecode : Prop :=
  DecodesAs .decKnock1 0b011110#6 10 2 5 0 0 ∧
  DecodesAs .decKnock2 0b011111#6 10 4 5 0 0 ∧
  DecodesAs .decKnock3 0b100000#6 10 6 5 0 0 ∧
  DecodesAs .decKnock4 0b100001#6 11 2 5 0 0 ∧
  DecodesAs .decKnock5 0b100010#6 11 4 5 0 0 ∧
  DecodesAs .decKnock6 0b100011#6 11 6 5 0 0 ∧
  DecodesAs .decKnock7 0b100100#6 12 2 5 0 0 ∧
  DecodesAs .decKnock8 0b100101#6 12 4 5 0 0

/-- The exhaust cam positions return the negated raw value with one decimal place (41_decode_parameters.md R117,
R118). -/
def Obligations.ExhaustCamTagsDecode : Prop :=
  DecodesAs .decCamExL 0b010001#6 5 6 (-1) 0 1 ∧
  DecodesAs .decCamExR 0b010010#6 6 2 (-1) 0 1

/-- Ignition timing scales first, then subtracts 100 (41_decode_parameters.md R114). -/
def Obligations.IgnitionTimingDecodes : Prop :=
  DecodesAs .decIgnTiming 0b001110#6 4 6 1 (-1000) 1 ∧
  ∀ s : State, ∃ r : Result, Returns .decIgnTiming s r ∧ r.exact = (rawAt s 38 : Rat) / 10 - 100

/-- The unknown tags 39 to 63 return the sentinel with unk = 1, whatever FB holds (41_decode_parameters.md R139). -/
def Obligations.UnknownTagsReturnTheSentinel : Prop :=
  ∃ r : Result, r = { m := 0xFFFFFFFF#32, dp := 0, unk := true, fval := .finite (-1) } ∧
    floatConv 0xFFFFFFFF#32 0 = .finite (-1) ∧ r.exact = -1 ∧
    decode (.decode 0b100111#6) = .decUnknown39 ∧ (∀ s : State, Returns .decUnknown39 s r) ∧
    (∀ tag : Tag, 40 ≤ tag.toNat → tag.toNat ≤ 47 →
      decode (.decode tag) = .decUnknown40to47 tag ∧ ∀ s : State, Returns (.decUnknown40to47 tag) s r) ∧
    (∀ tag : Tag, 48 ≤ tag.toNat → tag.toNat ≤ 63 →
      decode (.decode tag) = .decUnknown48to63 tag ∧ ∀ s : State, Returns (.decUnknown48to63 tag) s r)

/-- The mantissa of each transform kind stays in its range, reaches both ends and fits in 19 bits
(40_decode_datapath.md R88). -/
def Obligations.ResultRangesByKind : Prop :=
  (∀ (kind : Kind) (raw16 : RawWord),
    (transform kind raw16).m = ((transform kind raw16).m.setWidth 19).signExtend 32) ∧
  ∀ (kind : Kind) (low high : Int),
    (kind, low, high) ∈ ([(.ident, -32768, 32767), (.ofsM100, -32868, 32667), (.ofsM50, -32818, 32717),
      (.scl01, -32768, 32767), (.scl001, -32768, 32767), (.scl0001, -32768, 32767), (.scl5, -163840, 163835),
      (.sclN01, -32767, 32768), (.scl01OfsM100, -33768, 31767)] : List (Kind × Int × Int)) →
    (∀ raw16 : RawWord, low ≤ (transform kind raw16).m.toInt ∧ (transform kind raw16).m.toInt ≤ high) ∧
    (∃ raw16 : RawWord, (transform kind raw16).m.toInt = low) ∧
    (∃ raw16 : RawWord, (transform kind raw16).m.toInt = high)

/-- The exact value of every kind is the source's formula (40_decode_datapath.md R86). -/
def Obligations.ExactValuesAreTheSourceFormulas : Prop :=
  ∀ raw16 : RawWord, ∀ raw : Rat, raw = (signed16 raw16.toNat : Rat) →
    (transform .ident raw16).exact = raw ∧
    (transform .ofsM100 raw16).exact = raw - 100 ∧
    (transform .ofsM50 raw16).exact = raw - 50 ∧
    (transform .scl01 raw16).exact = raw / 10 ∧
    (transform .scl001 raw16).exact = raw / 100 ∧
    (transform .scl0001 raw16).exact = raw / 1000 ∧
    (transform .scl5 raw16).exact = 5 * raw ∧
    (transform .sclN01 raw16).exact = -raw / 10 ∧
    (transform .scl01OfsM100 raw16).exact = (raw - 1000) / 10 ∧
    (transform .scl01OfsM100 raw16).exact = raw / 10 - 100

/-- FLOAT_CONV is exact at dp = 0 and gives the named values at dp > 0 (40_decode_datapath.md R87 items 1 to 3). -/
def Obligations.FloatRenderingKeepsItsNamedValues : Prop :=
  (∀ m : MWord, -163840 ≤ m.toInt → m.toInt ≤ 163835 → floatConv m 0 = .finite (m.toInt : Rat)) ∧
  floatConv 1000#32 1 = .finite 100 ∧ floatConv 1000#32 3 = .finite 1 ∧
  floatConv (BitVec.ofInt 32 (-10)) 1 = .finite (-1) ∧ floatConv (BitVec.ofInt 32 (-1000)) 1 = .finite (-100) ∧
  floatConv 0#32 0 = .finite 0 ∧ floatConv 0xFFFFFFFF#32 0 = .finite (-1)

/-- A decode depends on the two octets of its binding and on nothing else (40_decode_datapath.md R89). -/
def Obligations.DecodeIsLocal : Prop :=
  ∀ (tag : Tag) (s s' : State),
    (∀ d : Descriptor, desc? tag = some d →
      s.octet d.addr = s'.octet d.addr ∧ s.octet (d.addr + 1) = s'.octet (d.addr + 1)) →
    ∃ r : Result, Returns (decode (.decode tag)) s r ∧ Returns (decode (.decode tag)) s' r

/-- Header octets never change a result (10_state.md R24; 20_memory.md R41). -/
def Obligations.HeaderOctetsAreNeverRead : Prop :=
  ∀ (tag : Tag) (s s' : State),
    (∀ a : Nat, a < 104 → 2 ≤ a % 8 → s.octet a = s'.octet a) →
    ∃ r : Result, Returns (decode (.decode tag)) s r ∧ Returns (decode (.decode tag)) s' r

/-- The decodes reach exactly the 78 octets at bytes 2 to 7 of the 13 frames, at even addresses (20_memory.md R41,
R44). -/
def Obligations.DecodeReachesTheWordsOfFb : Prop :=
  (∀ (tag : Tag) (d : Descriptor), desc? tag = some d → d.addr % 2 = 0 ∧ d.addr + 1 < 104) ∧
  ∀ a : Nat, (∃ (tag : Tag) (d : Descriptor), desc? tag = some d ∧ (a = d.addr ∨ a = d.addr + 1)) ↔
    (a < 104 ∧ 2 ≤ a % 8)

/-- A decode writes no state, and two decodes of one tag with the same FB at both, whatever came between, return
identical results (40_decode_datapath.md R90). -/
def Obligations.DecodeFrame : Prop :=
  ∀ (tag : Tag) (s t : State), exec (decode (.decode tag)) s = .next t →
    t.fb = s.fb ∧ (∀ a : Nat, t.octet a = s.octet a) ∧ t.answers = s.answers ∧ t.pending = s.pending ∧
    t.draw = s.draw ∧ t.races = s.races ∧
    ∃ r : Result, t.inFlight = s.inFlight ++ [r] ∧
      ∀ u : State, u.fb = t.fb → u.draw = t.draw → Returns (decode (.decode tag)) u r

/-- Every limiter flag is recovered from the signed result (41_decode_parameters.md R140). -/
def Obligations.LimiterFlagsSurviveTheSign : Prop :=
  ∀ s : State, ∃ r : Result, Returns .decLimiterFlags s r ∧
    ∀ i : Nat, i ≤ 15 → limiterFlag r.m i = (wordAt s 102).testBit i ∧
      (r.m.toInt >>> i) % 2 = (if (wordAt s 102).testBit i then 1 else 0)

/-- unk is set exactly for the tags above 38, while the exact value -1 is reached by known tags too (90_conflicts.md
C4). -/
def Obligations.OnlyTheUnknownBitTellsTheSentinel : Prop :=
  (∀ (tag : Tag) (s : State), ∃ r : Result, Returns (decode (.decode tag)) s r ∧ (r.unk = true ↔ 38 < tag.toNat)) ∧
  ∀ i : Instr, i = .decEngineSpeed ∨ i = .decMgp ∨ i = .decEct →
    ∃ (s : State) (r : Result), Returns i s r ∧ r.exact = -1 ∧ r.unk = false

/-- WRF 0 to 12 replaces the eight octets of its frame and nothing else (42_frame_write.md R150). -/
def Obligations.FrameWriteReplacesOneFrame : Prop :=
  ∀ (frame : FrameIx) (data : FrameData),
    (frame.toNat ≤ 7 → WritesFrame (.wrf0to7 frame data) frame data) ∧
    (8 ≤ frame.toNat → frame.toNat ≤ 11 → WritesFrame (.wrf8to11 frame data) frame data) ∧
    (frame.toNat = 12 → WritesFrame (.wrf12 data) frame data)

/-- WRF 13 to 15 changes no state (42_frame_write.md R151). -/
def Obligations.WriteOfNoFrameChangesNothing : Prop :=
  (∀ bits : BitVec 68, 13 ≤ (frameField bits).toNat → ∀ s : State, exec (decode (.write bits)) s = .next s) ∧
  (∀ (data : FrameData) (s : State), exec (.wrfIgnored13 data) s = .next s) ∧
  (∀ (frame : FrameIx) (data : FrameData) (s : State), 14 ≤ frame.toNat →
    exec (.wrfIgnored14to15 frame data) s = .next s)

/-- A word written as octets lo, hi reads back as hi ++ lo (20_memory.md R43). -/
def Obligations.WrittenWordReadsBack : Prop :=
  ∀ (frame : FrameIx) (data : FrameData) (o : Nat) (s : State), frame.toNat ≤ 12 → o = 2 ∨ o = 4 ∨ o = 6 →
    ∃ t : State, exec (decode (.write (frame ++ data))) s = .next t ∧
      wordAt t (8 * frame.toNat + o) = (data.extractLsb' (8 * o) 16).toNat ∧
      wordAt t (8 * frame.toNat + o) =
        (data.extractLsb' (8 * o) 8).toNat + 256 * (data.extractLsb' (8 * (o + 1)) 8).toNat

/-- The last write of a frame wins, and writes of different frames commute (42_frame_write.md R150; canonical form:
log entry 1). -/
def Obligations.WritesOfTwoFramesCommute : Prop :=
  ∀ (f g : FrameIx) (d e : FrameData) (s : State), s.fb.wf = true →
    ∃ t u v : State, exec (decode (.write (f ++ d))) s = .next t ∧ exec (decode (.write (g ++ e))) t = .next u ∧
      exec (decode (.write (g ++ e))) s = .next v ∧
      (f = g → u = v) ∧ (f ≠ g → exec (decode (.write (f ++ d))) v = .next u)

/-- A step runs the decoded transaction, or delivers, resets or idles. The event list, and what a step does with
nothing pending, are the model's choice (log entries 5, 7 and 8). -/
def Obligations.StepRunsTheDecodedTransaction : Prop :=
  ∀ (s : State) (rest : List Event),
    (∀ word : PortWord, s.pending = .port word :: rest → step s = exec (decode word) { s with pending := rest }) ∧
    (∀ (tag : Tag) (bits : BitVec 68), s.pending = .sameCycle tag bits :: rest →
      step s = if Config.writeFirst s.races then
          exec (decode (.write bits)) { s with pending := .port (.decode tag) :: rest, races := s.races + 1 }
        else exec (decode (.decode tag)) { s with pending := .port (.write bits) :: rest, races := s.races + 1 }) ∧
    (s.pending = .deliver :: rest → step s = .next (State.deliverOldest { s with pending := rest })) ∧
    (s.pending = .reset :: rest → step s = .next (State.hostReset { s with pending := rest })) ∧
    (s.pending = [] → step s = .next s.deliverOldest) ∧
    (s.pending = [] → s.inFlight = [] → step s = .next s)

/-- A placed transaction word is the very next transaction to run. How words are placed is the model's choice (log
entry 5). -/
def Obligations.PlacedWordRunsNext : Prop :=
  ∀ (s : State) (nbits w : Nat) (i : Instr), decodeTableWord nbits w = some i →
    step (s.withFetchWord nbits w) = exec i s

/-- Every transaction and every step completes: no fault, no refusal (60_exceptions.md R160; 70_reset_and_hazards.md
R187, R188). -/
def Obligations.EveryStepCompletes : Prop :=
  (∀ (i : Instr) (s : State), ∃ t : State, exec i s = .next t) ∧ ∀ s : State, SafeStep s

/-- A decode right after a frame write sees the written octets (70_reset_and_hazards.md R183). The list of pending
events is the model's choice (log entry 5). -/
def Obligations.WriteThenDecodeNeedsNoGap : Prop :=
  ∀ (s : State) (bits : BitVec 68) (tag : Tag) (d : Descriptor) (rest : List Event),
    s.pending = .port (.write bits) :: .port (.decode tag) :: rest → desc? tag = some d →
    ∃ (u t : State) (r : Result), step s = .next u ∧ step u = .next t ∧ t.pending = rest ∧
      t.inFlight = s.inFlight ++ [r] ∧ t.fb = u.fb ∧ r.dp = d.kind.dp ∧ r.unk = false ∧
      r.m.toInt = d.kind.k *
          (if (frameField bits).toNat = d.frame.val then signed16 (bits.extractLsb' (8 * d.offset.val) 16).toNat
            else rawAt s d.addr) +
        d.kind.c

/-- A decode and a write in the same cycle give the result of before or of after the write, never a mixture
(20_memory.md R51). The pair as one event of two steps is the model's choice (log entry 8). -/
def Obligations.SameCyclePairIsOneOfTwoOrders : Prop :=
  ∀ (s : State) (tag : Tag) (bits : BitVec 68) (rest : List Event), s.pending = .sameCycle tag bits :: rest →
    ∃ (w u t : State) (r before after : Result), exec (decode (.write bits)) s = .next w ∧
      Returns (decode (.decode tag)) s before ∧ Returns (decode (.decode tag)) w after ∧
      step s = .next u ∧ step u = .next t ∧ t.pending = rest ∧ t.fb = w.fb ∧ t.draw = w.draw ∧
      t.inFlight = s.inFlight ++ [r] ∧ (r = before ∨ r = after) ∧
      ((∀ d : Descriptor, desc? tag = some d → d.frame.val ≠ (frameField bits).toNat) → before = after)

/-- Only a frame write of that frame or a reset changes an octet of FB (10_state.md R23, R33). The list of pending
events is the model's choice (log entry 5). -/
def Obligations.FbChangesOnlyByWriteOrReset : Prop :=
  ∀ (s t : State) (a : Nat), step s = .next t → t.octet a ≠ s.octet a →
    ∃ (e : Event) (rest : List Event), s.pending = e :: rest ∧
      (e = .reset ∨
        ∃ bits : BitVec 68, (frameField bits).toNat = a / 8 ∧ a < 104 ∧
          (e = .port (.write bits) ∨ ∃ tag : Tag, e = .sameCycle tag bits))

/-- Reset: every octet is a draw of FB_INIT and nothing is in flight. A fresh draw for each reset is the model's
choice (log entry 2). -/
def Obligations.HostResetRedrawsTheBuffer : Prop :=
  ∀ (s : State) (rest : List Event), s.pending = .reset :: rest →
    ∃ t : State, step s = .next t ∧ (∀ a : Nat, t.octet a = Config.fbInit (s.draw + 1) a) ∧ t.inFlight = [] ∧
      t.answers = s.answers ∧ t.pending = rest

/-- Right after reset every octet is a draw of FB_INIT and there is no result (10_state.md R33, R34). An empty
record of answers is the model's choice (log entry 6). -/
def Obligations.ResetStateHoldsOnlyDraws : Prop :=
  (∀ a : Nat, State.reset.octet a = Config.fbInit State.reset.draw a) ∧ State.reset.inFlight = [] ∧
  State.reset.answers = []

/-- Results are returned in the order the decodes were accepted, and later events do not change them
(70_reset_and_hazards.md R186). The record of answers, and that a reset keeps it, are the model's choice (log
entry 6). -/
def Obligations.ResultsReturnInOrder : Prop :=
  ∀ s t : State, step s = .next t →
    (∃ returned : List Result, t.answers = s.answers ++ returned ∧ returned.length ≤ 1) ∧
    ((∀ rest : List Event, s.pending ≠ .reset :: rest) →
      ∃ issued : List Result, t.answers ++ t.inFlight = s.answers ++ s.inFlight ++ issued ∧ issued.length ≤ 1) ∧
    ((∃ rest : List Event, s.pending = .reset :: rest) → t.answers = s.answers ∧ t.inFlight = [])

/-- Without a reset, every decode in flight or still to be accepted is answered, in order, in a bounded number of
steps (70_reset_and_hazards.md R186; a reset abandons what is in flight, R180). Events taken one by one, and one
result returned for each step with nothing pending, are the model's choice (log entries 5, 7 and 8). -/
def Obligations.EveryAcceptedDecodeIsAnswered : Prop :=
  (∀ s : State, s.pending = [] →
    steps s.inFlight.length s = .next { s with inFlight := [], answers := s.answers ++ s.inFlight }) ∧
  ∀ s : State, Event.reset ∉ s.pending →
    ∃ (n : Nat) (t : State) (issued : List Result), n ≤ 3 * s.pending.length + s.inFlight.length ∧
      steps n s = .next t ∧ t.pending = [] ∧ t.inFlight = [] ∧
      t.answers = s.answers ++ s.inFlight ++ issued ∧
      issued.length = (s.pending.map Event.requests).sum

/-- The state right after reset meets the invariant (its canonical form is the model's, log entry 1). -/
def Obligations.ResetMeetsTheInvariant : Prop :=
  State.reset.Inv

/-- Every step keeps FB in canonical form (the model's, log entry 1) and every answer legal (40_decode_datapath.md
R80 to R87; 41_decode_parameters.md R139). -/
def Obligations.StepKeepsTheInvariant : Prop :=
  ∀ s t : State, s.Inv → step s = .next t → t.Inv
end

