-- ==== Sys2Proof/Laws/State.lean ====
section
/-! SUPPORT. What each update of the state leaves in each field. -/

namespace Sys2Proof.Machine

@[simp] theorem State.issue_fb (s : State) (r : Result) : (s.issue r).fb = s.fb := rfl
@[simp] theorem State.issue_inFlight (s : State) (r : Result) : (s.issue r).inFlight = s.inFlight ++ [r] := rfl
@[simp] theorem State.issue_answers (s : State) (r : Result) : (s.issue r).answers = s.answers := rfl
@[simp] theorem State.issue_pending (s : State) (r : Result) : (s.issue r).pending = s.pending := rfl
@[simp] theorem State.issue_draw (s : State) (r : Result) : (s.issue r).draw = s.draw := rfl
@[simp] theorem State.issue_races (s : State) (r : Result) : (s.issue r).races = s.races := rfl

@[simp] theorem State.hostReset_fb (s : State) : s.hostReset.fb = [] := rfl
@[simp] theorem State.hostReset_inFlight (s : State) : s.hostReset.inFlight = [] := rfl
@[simp] theorem State.hostReset_answers (s : State) : s.hostReset.answers = s.answers := rfl
@[simp] theorem State.hostReset_pending (s : State) : s.hostReset.pending = s.pending := rfl
@[simp] theorem State.hostReset_draw (s : State) : s.hostReset.draw = s.draw + 1 := rfl
@[simp] theorem State.hostReset_races (s : State) : s.hostReset.races = s.races := rfl

/-- A frame write of a frame that exists stores its eight octets and does nothing else. -/
theorem State.writeFrame_of_lt {s : State} {frame : FrameIx} {data : FrameData} (h : frame.toNat < Config.numFrames) :
    s.writeFrame frame data = { s with fb := s.fb.storeAll (frameAddr frame) (dataOctets data) } := if_pos h

/-- A frame write of a frame that does not exist does nothing. -/
theorem State.writeFrame_of_ge {s : State} {frame : FrameIx} {data : FrameData} (h : Config.numFrames ≤ frame.toNat) :
    s.writeFrame frame data = s := if_neg (by omega)

@[simp] theorem State.writeFrame_inFlight (s : State) (frame : FrameIx) (data : FrameData) :
    (s.writeFrame frame data).inFlight = s.inFlight := by unfold State.writeFrame; split <;> rfl
@[simp] theorem State.writeFrame_answers (s : State) (frame : FrameIx) (data : FrameData) :
    (s.writeFrame frame data).answers = s.answers := by unfold State.writeFrame; split <;> rfl
@[simp] theorem State.writeFrame_pending (s : State) (frame : FrameIx) (data : FrameData) :
    (s.writeFrame frame data).pending = s.pending := by unfold State.writeFrame; split <;> rfl
@[simp] theorem State.writeFrame_draw (s : State) (frame : FrameIx) (data : FrameData) :
    (s.writeFrame frame data).draw = s.draw := by unfold State.writeFrame; split <;> rfl
@[simp] theorem State.writeFrame_races (s : State) (frame : FrameIx) (data : FrameData) :
    (s.writeFrame frame data).races = s.races := by unfold State.writeFrame; split <;> rfl

/-- With nothing in flight, delivering does nothing. -/
theorem State.deliverOldest_nil {s : State} (h : s.inFlight = []) : s.deliverOldest = s := by
  simp [State.deliverOldest, h]

/-- With a result in flight, delivering moves the oldest one to the host's answers. -/
theorem State.deliverOldest_cons {s : State} {r : Result} {rest : List Result} (h : s.inFlight = r :: rest) :
    s.deliverOldest = { s with inFlight := rest, answers := s.answers ++ [r] } := by
  simp [State.deliverOldest, h]

@[simp] theorem State.deliverOldest_fb (s : State) : s.deliverOldest.fb = s.fb := by
  unfold State.deliverOldest; split <;> rfl
@[simp] theorem State.deliverOldest_pending (s : State) : s.deliverOldest.pending = s.pending := by
  unfold State.deliverOldest; split <;> rfl
@[simp] theorem State.deliverOldest_draw (s : State) : s.deliverOldest.draw = s.draw := by
  unfold State.deliverOldest; split <;> rfl
@[simp] theorem State.deliverOldest_races (s : State) : s.deliverOldest.races = s.races := by
  unfold State.deliverOldest; split <;> rfl

/-- Delivering loses no result and keeps their order. -/
theorem State.deliverOldest_results (s : State) :
    s.deliverOldest.answers ++ s.deliverOldest.inFlight = s.answers ++ s.inFlight := by
  cases h : s.inFlight with
  | nil => rw [State.deliverOldest_nil h, h]
  | cons r rest => simp [State.deliverOldest_cons h]

/-- What an octet reads as depends on the frame buffer and the draw alone. -/
theorem State.octet_congr {s t : State} (hfb : s.fb = t.fb) (hdraw : s.draw = t.draw) (a : Nat) :
    s.octet a = t.octet a := by simp [State.octet, hfb, hdraw]

@[simp] theorem State.issue_octet (s : State) (r : Result) (a : Nat) : (s.issue r).octet a = s.octet a := rfl
@[simp] theorem State.deliverOldest_octet (s : State) (a : Nat) : s.deliverOldest.octet a = s.octet a :=
  State.octet_congr (by simp) (by simp) a

end Sys2Proof.Machine
end

