-- ==== Sys2Proof/Laws/Memory.lean ====
section
/-! SUPPORT. The laws of the frame buffer: a read after a store, and the canonical form. -/

namespace Sys2Proof.Machine

/-- A read after a store of one octet. -/
theorem Memory.load_store (m : Memory) (a x : Nat) (b : Byte) :
    (m.store a b).load x = if a = x then some b else m.load x := by
  induction m with
  | nil => rfl
  | cons cell cells ih =>
    unfold Memory.store
    split
    · rename_i hlt
      by_cases hcx : cell.1 = x
      · have hax : a ≠ x := by omega
        simp [Memory.load, hcx, hax]
      · simp [Memory.load, hcx, ih]
    · split
      · rename_i heq
        simp only [Memory.load, heq]
        split <;> rfl
      · simp [Memory.load]

/-- A read after a store of several octets. -/
theorem Memory.load_storeAll (m : Memory) (a : Nat) (bs : List Byte) (x : Nat) :
    (m.storeAll a bs).load x = if a ≤ x ∧ x < a + bs.length then bs[x - a]? else m.load x := by
  induction bs generalizing m a with
  | nil =>
    have h : ¬ (a ≤ x ∧ x < a) := by omega
    simp [Memory.storeAll, h]
  | cons b bs ih =>
    rw [Memory.storeAll, ih, Memory.load_store]
    by_cases hax : a = x
    · subst hax
      have hnot : ¬ (a + 1 ≤ a ∧ a < a + 1 + bs.length) := by omega
      rw [if_neg hnot]
      simp
    · by_cases hin : a ≤ x ∧ x < a + (b :: bs).length
      · have hin' : a + 1 ≤ x ∧ x < a + 1 + bs.length := by simp only [List.length_cons] at hin; omega
        have hsub : x - a = (x - (a + 1)) + 1 := by omega
        rw [if_pos hin', if_pos hin, hsub, List.getElem?_cons_succ]
      · have hin' : ¬ (a + 1 ≤ x ∧ x < a + 1 + bs.length) := by simp only [List.length_cons] at hin; omega
        rw [if_neg hin', if_neg hin, if_neg hax]

/-- Rising from a later address is rising from an earlier one. -/
theorem Memory.risesFrom_mono {m : Memory} {low low' : Nat} (hle : low' ≤ low) (h : m.risesFrom low = true) :
    m.risesFrom low' = true := by
  cases m with
  | nil => rfl
  | cons cell cells =>
    simp only [Memory.risesFrom, Bool.and_eq_true, decide_eq_true_eq] at h ⊢
    exact ⟨⟨by omega, h.1.2⟩, h.2⟩

/-- A store keeps the addresses rising. -/
theorem Memory.risesFrom_store {m : Memory} {low a : Nat} {b : Byte} (h : m.risesFrom low = true) (hlow : low ≤ a)
    (ha : a < Config.fbBytes) : (m.store a b).risesFrom low = true := by
  induction m generalizing low with
  | nil => simp [Memory.store, Memory.risesFrom, hlow, ha]
  | cons cell cells ih =>
    simp only [Memory.risesFrom, Bool.and_eq_true, decide_eq_true_eq] at h
    unfold Memory.store
    split
    · simp only [Memory.risesFrom, Bool.and_eq_true, decide_eq_true_eq]
      exact ⟨h.1, ih h.2 (by omega)⟩
    · split
      · rename_i heq
        simp only [Memory.risesFrom, Bool.and_eq_true, decide_eq_true_eq]
        exact ⟨⟨hlow, ha⟩, heq ▸ h.2⟩
      · simp only [Memory.risesFrom, Bool.and_eq_true, decide_eq_true_eq]
        exact ⟨⟨hlow, ha⟩, ⟨by omega, h.1.2⟩, h.2⟩

/-- A store inside the address space keeps the canonical form. -/
theorem Memory.wf_store {m : Memory} {a : Nat} {b : Byte} (h : m.wf = true) (ha : a < Config.fbBytes) :
    (m.store a b).wf = true :=
  Memory.risesFrom_store h (Nat.zero_le a) ha

/-- Storing several octets inside the address space keeps the canonical form. -/
theorem Memory.wf_storeAll {m : Memory} {a : Nat} {bs : List Byte} (h : m.wf = true)
    (ha : a + bs.length ≤ Config.fbBytes) : (m.storeAll a bs).wf = true := by
  induction bs generalizing m a with
  | nil => exact h
  | cons b bs ih =>
    simp only [List.length_cons] at ha
    exact ih (Memory.wf_store h (by omega)) (by omega)

/-- Equal memories in canonical form are equal data. -/
theorem Memory.eq_of_load {m m' : Memory} {low low' : Nat} (h : m.risesFrom low = true) (h' : m'.risesFrom low' = true)
    (hload : ∀ a, m.load a = m'.load a) : m = m' := by
  have below : ∀ (m : Memory) (low a : Nat), m.risesFrom low = true → a < low → m.load a = none := by
    intro m
    induction m with
    | nil => intros; rfl
    | cons cell cells ih =>
      intro low a hm ha
      simp only [Memory.risesFrom, Bool.and_eq_true, decide_eq_true_eq] at hm
      rw [Memory.load, if_neg (by omega)]
      exact ih _ _ hm.2 (by omega)
  induction m generalizing m' low low' with
  | nil =>
    cases m' with
    | nil => rfl
    | cons cell cells => simpa [Memory.load] using hload cell.1
  | cons cell cells ih =>
    cases m' with
    | nil => simpa [Memory.load] using hload cell.1
    | cons cell' cells' =>
      simp only [Memory.risesFrom, Bool.and_eq_true, decide_eq_true_eq] at h h'
      have hfirst : cell.1 = cell'.1 := by
        rcases Nat.lt_trichotomy cell.1 cell'.1 with hlt | heq | hgt
        · have hl := hload cell.1
          rw [Memory.load, Memory.load, if_pos rfl, if_neg (by omega), below _ _ _ h'.2 (by omega)] at hl
          cases hl
        · exact heq
        · have hl := hload cell'.1
          rw [Memory.load, Memory.load, if_neg (by omega), if_pos rfl, below _ _ _ h.2 (by omega)] at hl
          cases hl
      have hbyte : cell.2 = cell'.2 := by simpa [Memory.load, hfirst] using hload cell.1
      have hrest : cells = cells' := by
        apply ih h.2 h'.2
        intro a
        by_cases ha : cell.1 = a
        · rw [below _ _ _ h.2 (by omega), below _ _ _ h'.2 (by omega)]
        · have hl := hload a
          rwa [Memory.load, Memory.load, if_neg ha, if_neg (hfirst ▸ ha)] at hl
      rw [hrest, Prod.ext hfirst hbyte]

@[simp] theorem dataOctets_length (data : FrameData) : (dataOctets data).length = 8 := by
  simp [dataOctets, Config.frameBytes]

/-- Octet `i` of a frame write's data. -/
theorem dataOctets_getElem? (data : FrameData) {i : Nat} (hi : i < 8) : (dataOctets data)[i]? = some (dataOctet data i) := by
  simp [dataOctets, Config.frameBytes, List.getElem?_range hi]

/-- A frame write keeps the canonical form. -/
theorem State.writeFrame_wf {s : State} {frame : FrameIx} {data : FrameData} (h : s.fb.wf = true) :
    (s.writeFrame frame data).fb.wf = true := by
  by_cases hf : frame.toNat < Config.numFrames
  · rw [State.writeFrame_of_lt hf]
    apply Memory.wf_storeAll h
    simp only [Config.numFrames] at hf
    simp only [frameAddr, dataOctets_length, Config.fbBytes]
    omega
  · rw [State.writeFrame_of_ge (by omega)]
    exact h

/-- What an address reads as after a frame write: the data in the frame, but for a header octet that is not stored; the
octet of before anywhere else. -/
theorem State.writeFrame_octet (s : State) (frame : FrameIx) (data : FrameData) (a : Nat) :
    (s.writeFrame frame data).octet a =
      if frame.toNat < Config.numFrames ∧ a / 8 = frame.toNat ∧ headerDropped a = false then dataOctet data (a % 8)
      else s.octet a := by
  by_cases hf : frame.toNat < Config.numFrames
  · rw [State.writeFrame_of_lt hf]
    cases hd : headerDropped a with
    | true => simp [State.octet, hd]
    | false =>
      simp only [State.octet, hd, Memory.load_storeAll, frameAddr, dataOctets_length, hf, true_and, and_true,
        Bool.false_eq_true, if_false]
      by_cases ha : a / 8 = frame.toNat
      · have hin : 8 * frame.toNat ≤ a ∧ a < 8 * frame.toNat + 8 := by omega
        have hsub : a - 8 * frame.toNat = a % 8 := by omega
        rw [if_pos hin, if_pos ha, hsub, dataOctets_getElem? data (Nat.mod_lt a (by omega))]
        rfl
      · have hin : ¬ (8 * frame.toNat ≤ a ∧ a < 8 * frame.toNat + 8) := by omega
        rw [if_neg hin, if_neg ha]
  · rw [State.writeFrame_of_ge (by omega), if_neg (fun h => hf h.1)]

end Sys2Proof.Machine
end

