-- ==== Sys2Proof/Laws/Datapath.lean ====
section
/-! SUPPORT. One lemma per stage of the decode datapath, in the spec's integers. -/

namespace Sys2Proof.Machine

/-- Assembly is little-endian (20_memory.md R42). -/
theorem State.readWord_toNat (s : State) (a : Nat) : (s.readWord a).toNat = wordAt s a := by
  have hlow := (s.octet a).isLt
  have happ : (s.readWord a).toNat = (s.octet (a + 1)).toNat <<< 8 ||| (s.octet a).toNat := BitVec.toNat_append ..
  rw [happ, wordAt, ← Nat.shiftLeft_add_eq_or_of_lt hlow, Nat.shiftLeft_eq]
  omega

/-- A word of the frame buffer is 16 bits wide. -/
theorem wordAt_lt (s : State) (a : Nat) : wordAt s a < 65536 := by
  rw [← State.readWord_toNat]
  exact (s.readWord a).isLt

/-- Bit 15 of a 16-bit number. -/
theorem testBit_fifteen {u : Nat} (hu : u < 65536) : u.testBit 15 = decide (32768 ≤ u) := by
  rw [Nat.testBit_eq_decide_div_mod_eq, decide_eq_decide]
  omega

/-- The signed reading of a 16-bit pattern (40_decode_datapath.md R83). -/
theorem toInt_eq_signed16 (raw16 : RawWord) : raw16.toInt = signed16 raw16.toNat := by
  have hlt := raw16.isLt
  rw [BitVec.toInt_eq_toNat_cond, signed16, testBit_fifteen hlt]
  by_cases h : 32768 ≤ raw16.toNat
  · rw [if_neg (by omega), if_pos (by simpa using h)]
    omega
  · rw [if_pos (by omega), if_neg (by simpa using h)]
    omega

/-- The signed reading stays in 16 bits. -/
theorem signed16_range {u : Nat} (hu : u < 65536) : -32768 ≤ signed16 u ∧ signed16 u ≤ 32767 := by
  rw [signed16, testBit_fifteen hu]
  by_cases h : 32768 ≤ u
  · rw [if_pos (by simpa using h)]
    omega
  · rw [if_neg (by simpa using h)]
    omega

/-- Sign extension keeps the signed value (40_decode_datapath.md R83). -/
theorem signExtend_toInt (raw16 : RawWord) : (signExtend raw16).toInt = signed16 raw16.toNat := by
  rw [signExtend, BitVec.toInt_signExtend_of_le (by omega), toInt_eq_signed16]

/-- The multiply-accumulate never overflows on a 16-bit raw value (40_decode_datapath.md R84). -/
theorem multiplyAdd_toInt (kind : Kind) {raw : MWord} (hlow : -32768 ≤ raw.toInt) (hhigh : raw.toInt ≤ 32767) :
    (multiplyAdd kind raw).toInt = kind.k * raw.toInt + kind.c := by
  rw [multiplyAdd, BitVec.toInt_ofInt]
  apply Int.bmod_eq_of_le <;> cases kind <;> simp only [Kind.k, Kind.c] <;> omega

/-- The mantissa of a known decode in integers. -/
theorem transform_m_toInt (kind : Kind) (raw16 : RawWord) :
    (transform kind raw16).m.toInt = kind.k * signed16 raw16.toNat + kind.c := by
  have hrange := signed16_range raw16.isLt
  rw [← signExtend_toInt] at hrange
  show (multiplyAdd kind (signExtend raw16)).toInt = _
  rw [multiplyAdd_toInt kind hrange.1 hrange.2, signExtend_toInt]

/-- A known decode's answer is one the block can give. -/
theorem transform_legal (kind : Kind) (raw16 : RawWord) : (transform kind raw16).Legal :=
  ⟨rfl, .inr ⟨rfl, kind, signed16 raw16.toNat, (signed16_range raw16.isLt).1, (signed16_range raw16.isLt).2,
    transform_m_toInt kind raw16, rfl⟩⟩

/-- The sentinel is an answer the block can give. -/
theorem sentinel_legal : sentinel.Legal := ⟨rfl, .inl ⟨rfl, by decide, rfl⟩⟩

/-- A decode's result is the sentinel or a transform of the word at a descriptor's address. -/
theorem State.decodeResult_cases (s : State) (tag : Tag) :
    (s.decodeResult tag = sentinel) ∨
    ∃ d, desc? tag = some d ∧ s.decodeResult tag = transform d.kind (s.readWord d.addr) := by
  unfold State.decodeResult
  split
  · exact .inl rfl
  · split
    · exact .inr ⟨_, ‹_›, rfl⟩
    · exact .inl rfl

/-- Every result of a decode is an answer the block can give. -/
theorem State.decodeResult_legal (s : State) (tag : Tag) : (s.decodeResult tag).Legal := by
  obtain h | ⟨d, -, h⟩ := s.decodeResult_cases tag
  · rw [h]
    exact sentinel_legal
  · rw [h]
    exact transform_legal _ _

end Sys2Proof.Machine
end

