-- ==== Sys2Proof/Laws/PerInstr.lean ====
section
/-! SUPPORT. The round trip of every transaction through its port word, one lemma per constructor. -/

namespace Sys2Proof.Laws

/-- The frame field of an encoded write is the frame (30_encoding.md R60). -/
theorem frameField_append (frame : FrameIx) (data : FrameData) : frameField (frame ++ data) = frame := by
  apply BitVec.eq_of_getLsbD_eq
  intro i hi
  have h : (frame ++ data).getLsbD (64 + i) = _ := BitVec.getLsbD_append
  have hlow : ¬ 64 + i < 64 := by omega
  simpa [frameField, hi, hlow] using h

/-- The data field of an encoded write is the data (30_encoding.md R60). -/
theorem dataField_append (frame : FrameIx) (data : FrameData) : dataField (frame ++ data) = data := by
  apply BitVec.eq_of_getLsbD_eq
  intro i hi
  have h : (frame ++ data).getLsbD i = _ := BitVec.getLsbD_append
  simpa [dataField, hi] using h

/-- A tag above 38 is no known parameter (30_encoding.md R63). -/
theorem knownDecodes_unknown {tag : Tag} (h : 39 ≤ tag.toNat) : knownDecodes[tag.toNat]? = none :=
  List.getElem?_eq_none h

/-- Decoding the port word of a well-formed transaction gives it back. -/
def RoundTrip.Statement (i : Instr) : Prop := i.wellFormed = true → decode (encode i) = i

theorem RoundTrip.decEngineSpeed : RoundTrip.Statement .decEngineSpeed := fun _ => rfl

theorem RoundTrip.decMap : RoundTrip.Statement .decMap := fun _ => rfl

theorem RoundTrip.decMgp : RoundTrip.Statement .decMgp := fun _ => rfl

theorem RoundTrip.decBaro : RoundTrip.Statement .decBaro := fun _ => rfl

theorem RoundTrip.decTps : RoundTrip.Statement .decTps := fun _ => rfl

theorem RoundTrip.decInjDuty : RoundTrip.Statement .decInjDuty := fun _ => rfl

theorem RoundTrip.decInjDuty2 : RoundTrip.Statement .decInjDuty2 := fun _ => rfl

theorem RoundTrip.decInjPw : RoundTrip.Statement .decInjPw := fun _ => rfl

theorem RoundTrip.decEct : RoundTrip.Statement .decEct := fun _ => rfl

theorem RoundTrip.decIat : RoundTrip.Statement .decIat := fun _ => rfl

theorem RoundTrip.decBatt : RoundTrip.Statement .decBatt := fun _ => rfl

theorem RoundTrip.decMaf : RoundTrip.Statement .decMaf := fun _ => rfl

theorem RoundTrip.decGear : RoundTrip.Statement .decGear := fun _ => rfl

theorem RoundTrip.decInjTiming : RoundTrip.Statement .decInjTiming := fun _ => rfl

theorem RoundTrip.decIgnTiming : RoundTrip.Statement .decIgnTiming := fun _ => rfl

theorem RoundTrip.decCamInL : RoundTrip.Statement .decCamInL := fun _ => rfl

theorem RoundTrip.decCamInR : RoundTrip.Statement .decCamInR := fun _ => rfl

theorem RoundTrip.decCamExL : RoundTrip.Statement .decCamExL := fun _ => rfl

theorem RoundTrip.decCamExR : RoundTrip.Statement .decCamExR := fun _ => rfl

theorem RoundTrip.decLambda1 : RoundTrip.Statement .decLambda1 := fun _ => rfl

theorem RoundTrip.decLambda2 : RoundTrip.Statement .decLambda2 := fun _ => rfl

theorem RoundTrip.decTrig1Err : RoundTrip.Statement .decTrig1Err := fun _ => rfl

theorem RoundTrip.decFaultCount : RoundTrip.Statement .decFaultCount := fun _ => rfl

theorem RoundTrip.decFuelPress : RoundTrip.Statement .decFuelPress := fun _ => rfl

theorem RoundTrip.decOilTemp : RoundTrip.Statement .decOilTemp := fun _ => rfl

theorem RoundTrip.decOilPress : RoundTrip.Statement .decOilPress := fun _ => rfl

theorem RoundTrip.decWsLf : RoundTrip.Statement .decWsLf := fun _ => rfl

theorem RoundTrip.decWsLr : RoundTrip.Statement .decWsLr := fun _ => rfl

theorem RoundTrip.decWsRf : RoundTrip.Statement .decWsRf := fun _ => rfl

theorem RoundTrip.decWsRr : RoundTrip.Statement .decWsRr := fun _ => rfl

theorem RoundTrip.decKnock1 : RoundTrip.Statement .decKnock1 := fun _ => rfl

theorem RoundTrip.decKnock2 : RoundTrip.Statement .decKnock2 := fun _ => rfl

theorem RoundTrip.decKnock3 : RoundTrip.Statement .decKnock3 := fun _ => rfl

theorem RoundTrip.decKnock4 : RoundTrip.Statement .decKnock4 := fun _ => rfl

theorem RoundTrip.decKnock5 : RoundTrip.Statement .decKnock5 := fun _ => rfl

theorem RoundTrip.decKnock6 : RoundTrip.Statement .decKnock6 := fun _ => rfl

theorem RoundTrip.decKnock7 : RoundTrip.Statement .decKnock7 := fun _ => rfl

theorem RoundTrip.decKnock8 : RoundTrip.Statement .decKnock8 := fun _ => rfl

theorem RoundTrip.decLimiterFlags : RoundTrip.Statement .decLimiterFlags := fun _ => rfl

theorem RoundTrip.decUnknown39 : RoundTrip.Statement .decUnknown39 := fun _ => rfl

theorem RoundTrip.decUnknown40to47 (tag : Tag) : RoundTrip.Statement (.decUnknown40to47 tag) := by
  intro h
  simp only [Instr.wellFormed, Bool.and_eq_true, decide_eq_true_eq] at h
  have hne : ¬ tag.toNat ≤ 39 := by omega
  simp only [encode, decode, decodeTag, knownDecodes_unknown (show 39 ≤ tag.toNat by omega), hne, h.2, if_true,
    if_false]

theorem RoundTrip.decUnknown48to63 (tag : Tag) : RoundTrip.Statement (.decUnknown48to63 tag) := by
  intro h
  simp only [Instr.wellFormed, decide_eq_true_eq] at h
  have h39 : ¬ tag.toNat ≤ 39 := by omega
  have h47 : ¬ tag.toNat ≤ 47 := by omega
  simp only [encode, decode, decodeTag, knownDecodes_unknown (show 39 ≤ tag.toNat by omega), h39, h47, if_false]

theorem RoundTrip.wrf0to7 (frame : FrameIx) (data : FrameData) : RoundTrip.Statement (.wrf0to7 frame data) := by
  intro h
  simp only [Instr.wellFormed, decide_eq_true_eq] at h
  simp only [encode, writeWord, decode, decodeWrite, frameField_append, dataField_append, h, if_true]

theorem RoundTrip.wrf8to11 (frame : FrameIx) (data : FrameData) : RoundTrip.Statement (.wrf8to11 frame data) := by
  intro h
  simp only [Instr.wellFormed, Bool.and_eq_true, decide_eq_true_eq] at h
  have h7 : ¬ frame.toNat ≤ 7 := by omega
  simp only [encode, writeWord, decode, decodeWrite, frameField_append, dataField_append, h7, h.2, if_true, if_false]

theorem RoundTrip.wrf12 (data : FrameData) : RoundTrip.Statement (.wrf12 data) := by
  intro _
  simp [encode, writeWord, decode, decodeWrite, frameField_append, dataField_append]

theorem RoundTrip.wrfIgnored13 (data : FrameData) : RoundTrip.Statement (.wrfIgnored13 data) := by
  intro _
  simp [encode, writeWord, decode, decodeWrite, frameField_append, dataField_append]

theorem RoundTrip.wrfIgnored14to15 (frame : FrameIx) (data : FrameData) :
    RoundTrip.Statement (.wrfIgnored14to15 frame data) := by
  intro h
  simp only [Instr.wellFormed, decide_eq_true_eq] at h
  have h7 : ¬ frame.toNat ≤ 7 := by omega
  have h11 : ¬ frame.toNat ≤ 11 := by omega
  have h12 : ¬ frame.toNat ≤ 12 := by omega
  have h13 : ¬ frame.toNat ≤ 13 := by omega
  simp only [encode, writeWord, decode, decodeWrite, frameField_append, dataField_append, h7, h11, h12, h13, if_false]

end Sys2Proof.Laws
end

