-- ==== Sys2Proof/Laws/Step.lean ====
section
/-! SUPPORT. What executing a transaction and taking a step can do: one case lemma each, from which invariants follow. -/

namespace Sys2Proof.Machine

/-- Everything a transaction can do: a decode puts a legal result in flight; a frame write writes a frame (or, for an
index of no frame, nothing). -/
theorem exec_cases (i : Instr) (s : State) :
    (∃ r : Result, r.Legal ∧ exec i s = .next (s.issue r)) ∨
    (∃ (frame : FrameIx) (data : FrameData), exec i s = .next (s.writeFrame frame data)) := by
  cases i with
  | decUnknown39 => exact .inl ⟨_, sentinel_legal, rfl⟩
  | decUnknown40to47 tag => exact .inl ⟨_, sentinel_legal, rfl⟩
  | decUnknown48to63 tag => exact .inl ⟨_, sentinel_legal, rfl⟩
  | wrf0to7 frame data => exact .inr ⟨frame, data, rfl⟩
  | wrf8to11 frame data => exact .inr ⟨frame, data, rfl⟩
  | wrf12 data => exact .inr ⟨0b1100#4, data, rfl⟩
  | wrfIgnored13 data => exact .inr ⟨0b1101#4, data, rfl⟩
  | wrfIgnored14to15 frame data => exact .inr ⟨0b1110#4, data, rfl⟩
  | _ => exact .inl ⟨_, s.decodeResult_legal _, rfl⟩

/-- A step with nothing pending. -/
theorem step_nil {s : State} (h : s.pending = []) : step s = .next s.deliverOldest := by
  simp [step, nextAction, h]

/-- A step that accepts one transaction. -/
theorem step_port {s : State} {word : PortWord} {rest : List Event} (h : s.pending = .port word :: rest) :
    step s = exec (decode word) { s with pending := rest } := by
  simp [step, nextAction, h]

/-- A step that accepts a same-cycle pair, the write first. -/
theorem step_sameCycle_write {s : State} {tag : Tag} {bits : BitVec 68} {rest : List Event}
    (h : s.pending = .sameCycle tag bits :: rest) (hrace : Config.writeFirst s.races = true) :
    step s = exec (decodeWrite bits) { s with pending := .port (.decode tag) :: rest, races := s.races + 1 } := by
  simp only [step, nextAction, h, hrace, if_true]

/-- A step that accepts a same-cycle pair, the decode first. -/
theorem step_sameCycle_decode {s : State} {tag : Tag} {bits : BitVec 68} {rest : List Event}
    (h : s.pending = .sameCycle tag bits :: rest) (hrace : Config.writeFirst s.races = false) :
    step s = exec (decodeTag tag) { s with pending := .port (.write bits) :: rest, races := s.races + 1 } := by
  simp only [step, nextAction, h, hrace, Bool.false_eq_true, if_false]

/-- A step that delivers. -/
theorem step_deliver {s : State} {rest : List Event} (h : s.pending = .deliver :: rest) :
    step s = .next (State.deliverOldest { s with pending := rest }) := by
  simp [step, nextAction, h]

/-- A step that resets. -/
theorem step_reset {s : State} {rest : List Event} (h : s.pending = .reset :: rest) :
    step s = .next (State.hostReset { s with pending := rest }) := by
  simp [step, nextAction, h]

/-- Everything a step can do: run a transaction in a state that differs in the model's own fields `pending` and `races`
only, deliver, or reset. -/
theorem step_cases (s : State) :
    (∃ (i : Instr) (pending : List Event) (races : Nat), step s = exec i { s with pending := pending, races := races }) ∨
    (∃ pending : List Event, step s = .next (State.deliverOldest { s with pending := pending })) ∨
    (∃ pending : List Event, step s = .next (State.hostReset { s with pending := pending })) := by
  cases h : s.pending with
  | nil => exact .inr (.inl ⟨[], by rw [step_nil h]; congr; rw [← h]⟩)
  | cons event rest =>
    cases event with
    | port word => exact .inl ⟨_, _, _, step_port h⟩
    | sameCycle tag bits =>
      cases hrace : Config.writeFirst s.races with
      | true => exact .inl ⟨_, _, _, step_sameCycle_write h hrace⟩
      | false => exact .inl ⟨_, _, _, step_sameCycle_decode h hrace⟩
    | deliver => exact .inr (.inl ⟨rest, step_deliver h⟩)
    | reset => exact .inr (.inr ⟨rest, step_reset h⟩)

/-- One step and then the others. -/
theorem steps_succ {s t : State} (n : Nat) (h : step s = .next t) : steps (n + 1) s = steps n t := by
  rw [steps, h]

end Sys2Proof.Machine
end

