-- ==== Sys2Proof/Tests/Slice0.lean ====
section
/-! SUPPORT. Tests with expected results written out from the spec, and for each statement with hypotheses a concrete
state and operands that meet them. -/

open Sys2Proof Sys2Proof.Machine

namespace Sys2Proof.Tests

/-! ### Decoding: every constructor by its word (30_encoding.md R60, R61, R63, R64) -/

theorem test_tags_of_frame0 : decode (.decode 0b000000#6) = .decEngineSpeed ∧
    decode (.decode 0b000001#6) = .decMap ∧
    decode (.decode 0b000010#6) = .decMgp := by decide

theorem test_tags_of_frame1 : decode (.decode 0b000011#6) = .decBaro ∧
    decode (.decode 0b000100#6) = .decTps ∧
    decode (.decode 0b000101#6) = .decInjDuty := by decide

theorem test_tags_of_frame2 : decode (.decode 0b000110#6) = .decInjDuty2 ∧
    decode (.decode 0b000111#6) = .decInjPw ∧
    decode (.decode 0b001000#6) = .decEct := by decide

theorem test_tags_of_frame3 : decode (.decode 0b001001#6) = .decIat ∧
    decode (.decode 0b001010#6) = .decBatt ∧
    decode (.decode 0b001011#6) = .decMaf := by decide

theorem test_tags_of_frame4 : decode (.decode 0b001100#6) = .decGear ∧
    decode (.decode 0b001101#6) = .decInjTiming ∧
    decode (.decode 0b001110#6) = .decIgnTiming := by decide

theorem test_tags_of_frame5 : decode (.decode 0b001111#6) = .decCamInL ∧
    decode (.decode 0b010000#6) = .decCamInR ∧
    decode (.decode 0b010001#6) = .decCamExL := by decide

theorem test_tags_of_frame6 : decode (.decode 0b010010#6) = .decCamExR ∧
    decode (.decode 0b010011#6) = .decLambda1 ∧
    decode (.decode 0b010100#6) = .decLambda2 := by decide

theorem test_tags_of_frame7 : decode (.decode 0b010101#6) = .decTrig1Err ∧
    decode (.decode 0b010110#6) = .decFaultCount ∧
    decode (.decode 0b010111#6) = .decFuelPress := by decide

theorem test_tags_of_frame8 : decode (.decode 0b011000#6) = .decOilTemp ∧
    decode (.decode 0b011001#6) = .decOilPress ∧
    decode (.decode 0b011010#6) = .decWsLf := by decide

theorem test_tags_of_frame9 : decode (.decode 0b011011#6) = .decWsLr ∧
    decode (.decode 0b011100#6) = .decWsRf ∧
    decode (.decode 0b011101#6) = .decWsRr := by decide

theorem test_tags_of_frame10 : decode (.decode 0b011110#6) = .decKnock1 ∧
    decode (.decode 0b011111#6) = .decKnock2 ∧
    decode (.decode 0b100000#6) = .decKnock3 := by decide

theorem test_tags_of_frame11 : decode (.decode 0b100001#6) = .decKnock4 ∧
    decode (.decode 0b100010#6) = .decKnock5 ∧
    decode (.decode 0b100011#6) = .decKnock6 := by decide

theorem test_tags_of_frame12 : decode (.decode 0b100100#6) = .decKnock7 ∧
    decode (.decode 0b100101#6) = .decKnock8 ∧
    decode (.decode 0b100110#6) = .decLimiterFlags := by decide

theorem test_unknown_tags : decode (.decode 0b100111#6) = .decUnknown39 ∧
    decode (.decode 0b101000#6) = .decUnknown40to47 40#6 ∧ decode (.decode 0b101111#6) = .decUnknown40to47 47#6 ∧
    decode (.decode 0b110000#6) = .decUnknown48to63 48#6 ∧ decode (.decode 0b111111#6) = .decUnknown48to63 63#6 := by
  decide

/-- The words of P1, P3 (95_test_vectors.md) and the ends of each row's range of frames. -/
theorem test_write_words :
    decode (.write 0x0_00C8_0064_03E8_0000#68) = .wrf0to7 0#4 0x00C8_0064_03E8_0000#64 ∧
    decode (.write 0x7_012C_0002_0007_0007#68) = .wrf0to7 7#4 0x012C_0002_0007_0007#64 ∧
    decode (.write 0x8_0000_0000_0000_0001#68) = .wrf8to11 8#4 1#64 ∧
    decode (.write 0xB_8000_7FFF_00C8_000B#68) = .wrf8to11 11#4 0x8000_7FFF_00C8_000B#64 ∧
    decode (.write 0xC_8001_000B_FFFF_000C#68) = .wrf12 0x8001_000B_FFFF_000C#64 ∧
    decode (.write 0xD_FFFF_FFFF_FFFF_FFFF#68) = .wrfIgnored13 0xFFFF_FFFF_FFFF_FFFF#64 ∧
    decode (.write 0xE_0000_0000_0000_0002#68) = .wrfIgnored14to15 14#4 2#64 ∧
    decode (.write 0xF_0000_0000_0000_0002#68) = .wrfIgnored14to15 15#4 2#64 := by decide

/-- Bytes and words of the opcode map; what is no port word is refused by name. -/
theorem test_table_words : decodeTableWord 8 0x0E = some .decIgnTiming ∧ decodeTableWord 8 0x40 = none ∧
    decodeTableWord 72 0xC_8001_000B_FFFF_000C = some (.wrf12 0x8001_000B_FFFF_000C#64) := by decide

theorem test_refused_bytes : portWordOfBytes [0x40#8] = .error .paddingNotZero ∧
    portWordOfBytes [] = .error (.badLength 0) ∧ portWordOfBytes [0#8, 0#8] = .error (.badLength 2) ∧
    portWordOfBytes [0#8, 0#8, 0#8, 0#8, 0#8, 0#8, 0#8, 0#8, 0x10#8] = .error .paddingNotZero := ⟨rfl, rfl, rfl, rfl⟩

/-! ### WellFormed: an ill-formed term for each check -/

theorem test_ill_formed_tags : (Instr.decUnknown40to47 39#6).wellFormed = false ∧
    (Instr.decUnknown40to47 48#6).wellFormed = false ∧ (Instr.decUnknown48to63 47#6).wellFormed = false := by decide

theorem test_ill_formed_frames : (Instr.wrf0to7 8#4 0#64).wellFormed = false ∧
    (Instr.wrf8to11 7#4 0#64).wellFormed = false ∧ (Instr.wrf8to11 12#4 0#64).wellFormed = false ∧
    (Instr.wrfIgnored14to15 13#4 0#64).wellFormed = false := by decide

/-! ### Decodes: the examples of 41_decode_parameters.md R100 to R138, each in a frame buffer of the two octets named -/

/-- A state after reset with some octets written. -/
def withFb (cells : Memory) : State := { State.reset with fb := cells }

/-- The newest result in flight of an outcome, as `(m, dp, unk)`. -/
def newest : Host.Outcome State Fault Refusal → Option (Int × Nat × Bool)
  | .next t => t.inFlight.getLast?.map (fun r => (r.m.toInt, r.dp.toNat, r.unk))
  | _ => none

/-- What an outcome's frame buffer lists at an address. -/
def listed (a : Nat) : Host.Outcome State Fault Refusal → Option Byte
  | .next t => t.fb.load a
  | _ => none

theorem test_examples_of_frame0 :
    newest (exec .decEngineSpeed (withFb [(2, 0xE8#8), (3, 0x03#8)])) = some (1000, 0, false) ∧
    newest (exec .decMap (withFb [(4, 0x64#8), (5, 0x00#8)])) = some (100, 0, false) ∧
    newest (exec .decMgp (withFb [(6, 0xC8#8), (7, 0x00#8)])) = some (100, 0, false) := by decide

theorem test_examples_of_frame1 :
    newest (exec .decBaro (withFb [(10, 0xF5#8), (11, 0x03#8)])) = some (1013, 1, false) ∧
    newest (exec .decTps (withFb [(12, 0xF4#8), (13, 0x01#8)])) = some (500, 1, false) ∧
    newest (exec .decInjDuty (withFb [(14, 0x20#8), (15, 0x03#8)])) = some (800, 1, false) := by decide

theorem test_examples_of_frame2 :
    newest (exec .decInjDuty2 (withFb [(18, 0x00#8), (19, 0x00#8)])) = some (0, 1, false) ∧
    newest (exec .decInjPw (withFb [(20, 0x1C#8), (21, 0x0C#8)])) = some (3100, 3, false) ∧
    newest (exec .decEct (withFb [(22, 0x87#8), (23, 0x00#8)])) = some (85, 0, false) := by decide

theorem test_examples_of_frame3 :
    newest (exec .decIat (withFb [(26, 0x28#8), (27, 0x00#8)])) = some (-10, 0, false) ∧
    newest (exec .decBatt (withFb [(28, 0x78#8), (29, 0x05#8)])) = some (1400, 2, false) ∧
    newest (exec .decMaf (withFb [(30, 0xFA#8), (31, 0x00#8)])) = some (250, 1, false) := by decide

theorem test_examples_of_frame4 :
    newest (exec .decGear (withFb [(34, 0x03#8), (35, 0x00#8)])) = some (3, 0, false) ∧
    newest (exec .decInjTiming (withFb [(36, 0x9C#8), (37, 0xFF#8)])) = some (-100, 0, false) ∧
    newest (exec .decIgnTiming (withFb [(38, 0x42#8), (39, 0x04#8)])) = some (90, 1, false) := by decide

theorem test_examples_of_frame5 :
    newest (exec .decCamInL (withFb [(42, 0xFF#8), (43, 0x00#8)])) = some (255, 1, false) ∧
    newest (exec .decCamInR (withFb [(44, 0xF6#8), (45, 0xFF#8)])) = some (-10, 1, false) ∧
    newest (exec .decCamExL (withFb [(46, 0x0A#8), (47, 0x00#8)])) = some (-10, 1, false) := by decide

theorem test_examples_of_frame6 :
    newest (exec .decCamExR (withFb [(50, 0x38#8), (51, 0xFF#8)])) = some (200, 1, false) ∧
    newest (exec .decLambda1 (withFb [(52, 0xE8#8), (53, 0x03#8)])) = some (1000, 3, false) ∧
    newest (exec .decLambda2 (withFb [(54, 0x98#8), (55, 0x03#8)])) = some (920, 3, false) := by decide

theorem test_examples_of_frame7 :
    newest (exec .decTrig1Err (withFb [(58, 0x07#8), (59, 0x00#8)])) = some (7, 0, false) ∧
    newest (exec .decFaultCount (withFb [(60, 0x02#8), (61, 0x00#8)])) = some (2, 0, false) ∧
    newest (exec .decFuelPress (withFb [(62, 0x2C#8), (63, 0x01#8)])) = some (300, 0, false) := by decide

theorem test_examples_of_frame8 :
    newest (exec .decOilTemp (withFb [(66, 0xA0#8), (67, 0x00#8)])) = some (110, 0, false) ∧
    newest (exec .decOilPress (withFb [(68, 0xC2#8), (69, 0x01#8)])) = some (450, 0, false) ∧
    newest (exec .decWsLf (withFb [(70, 0xE9#8), (71, 0x03#8)])) = some (1001, 1, false) := by decide

theorem test_examples_of_frame9 :
    newest (exec .decWsLr (withFb [(74, 0xEA#8), (75, 0x03#8)])) = some (1002, 1, false) ∧
    newest (exec .decWsRf (withFb [(76, 0xEB#8), (77, 0x03#8)])) = some (1003, 1, false) ∧
    newest (exec .decWsRr (withFb [(78, 0xEC#8), (79, 0x03#8)])) = some (1004, 1, false) := by decide

theorem test_examples_of_frame10 :
    newest (exec .decKnock1 (withFb [(82, 0x01#8), (83, 0x00#8)])) = some (5, 0, false) ∧
    newest (exec .decKnock2 (withFb [(84, 0x14#8), (85, 0x00#8)])) = some (100, 0, false) ∧
    newest (exec .decKnock3 (withFb [(86, 0x00#8), (87, 0x00#8)])) = some (0, 0, false) := by decide

theorem test_examples_of_frame11 :
    newest (exec .decKnock4 (withFb [(90, 0xC8#8), (91, 0x00#8)])) = some (1000, 0, false) ∧
    newest (exec .decKnock5 (withFb [(92, 0xFF#8), (93, 0x7F#8)])) = some (163835, 0, false) ∧
    newest (exec .decKnock6 (withFb [(94, 0x00#8), (95, 0x80#8)])) = some (-163840, 0, false) := by decide

theorem test_examples_of_frame12 :
    newest (exec .decKnock7 (withFb [(98, 0xFF#8), (99, 0xFF#8)])) = some (-5, 0, false) ∧
    newest (exec .decKnock8 (withFb [(100, 0x0B#8), (101, 0x00#8)])) = some (55, 0, false) ∧
    newest (exec .decLimiterFlags (withFb [(102, 0x01#8), (103, 0x80#8)])) = some (-32767, 0, false) := by decide

/-- The smallest raw value, per kind (95_test_vectors.md 2.1): outside the 16-bit range, exact. -/
theorem test_smallest_raw :
    newest (exec .decMgp (withFb [(6, 0x00#8), (7, 0x80#8)])) = some (-32868, 0, false) ∧
    newest (exec .decEct (withFb [(22, 0x00#8), (23, 0x80#8)])) = some (-32818, 0, false) ∧
    newest (exec .decCamExR (withFb [(50, 0x00#8), (51, 0x80#8)])) = some (32768, 1, false) ∧
    newest (exec .decIgnTiming (withFb [(38, 0x00#8), (39, 0x80#8)])) = some (-33768, 1, false) := by decide

/-- B2 and B6 of 95_test_vectors.md 2.2: byte order, and no sign extension from the low byte. -/
theorem test_byte_order : newest (exec .decEngineSpeed (withFb [(2, 0x03#8), (3, 0xE8#8)])) = some (-6141, 0, false) ∧
    newest (exec .decEngineSpeed (withFb [(2, 0x80#8), (3, 0x00#8)])) = some (128, 0, false) := by decide

/-- U1 to U5 of 95_test_vectors.md 2.4. -/
theorem test_sentinel : newest (exec .decUnknown39 State.reset) = some (-1, 0, true) ∧
    newest (exec (.decUnknown40to47 40#6) State.reset) = some (-1, 0, true) ∧
    newest (exec (.decUnknown48to63 63#6) State.reset) = some (-1, 0, true) := by decide

/-- The source's float values (40_decode_datapath.md R87). -/
theorem test_float_values : floatConv 1000#32 1 = .finite 100 ∧ floatConv 1000#32 3 = .finite 1 ∧
    floatConv 0xFFFFFFFF#32 0 = .finite (-1) ∧ floatConv 0#32 0 = .finite 0 := ⟨rfl, rfl, rfl, rfl⟩

/-- P3 of 95_test_vectors.md: limiter flags 0 and 15 of `0x8001`. -/
theorem test_limiter_flags : limiterFlag 0xFFFF8001#32 0 = true ∧ limiterFlag 0xFFFF8001#32 1 = false ∧
    limiterFlag 0xFFFF8001#32 14 = false ∧ limiterFlag 0xFFFF8001#32 15 = true := by decide

/-! ### Frame writes (95_test_vectors.md W1, W2, P3) -/

/-- W1: FB[3][2], FB[3][4] and FB[3][7] after the write. -/
theorem test_write_frame3 : listed 26 (exec (.wrf0to7 3#4 0x00FA_0578_0028_0003#64) State.reset) = some 0x28#8 ∧
    listed 28 (exec (.wrf0to7 3#4 0x00FA_0578_0028_0003#64) State.reset) = some 0x78#8 ∧
    listed 31 (exec (.wrf0to7 3#4 0x00FA_0578_0028_0003#64) State.reset) = some 0x00#8 ∧
    listed 32 (exec (.wrf0to7 3#4 0x00FA_0578_0028_0003#64) State.reset) = none := by decide

theorem test_write_frames11_12 : listed 94 (exec (.wrf8to11 11#4 0x8000_7FFF_00C8_000B#64) State.reset) = some 0x00#8 ∧
    listed 95 (exec (.wrf8to11 11#4 0x8000_7FFF_00C8_000B#64) State.reset) = some 0x80#8 ∧
    listed 98 (exec (.wrf12 0x8001_000B_FFFF_000C#64) State.reset) = some 0xFF#8 ∧
    listed 103 (exec (.wrf12 0x8001_000B_FFFF_000C#64) State.reset) = some 0x80#8 := by decide

theorem test_ignored_writes : listed 26 (exec (.wrfIgnored13 0xFFFF_FFFF_FFFF_FFFF#64) (withFb [(26, 7#8)])) = some 7#8 ∧
    listed 26 (exec (.wrfIgnored14to15 15#4 0#64) (withFb [(26, 7#8)])) = some 7#8 := by decide

/-! ### Steps -/

/-- The word placed in a state after reset is the next to run, for a decode, a write and an ignored write. -/
theorem test_placed_words :
    newest (step (State.reset.withFetchWord 8 0x27)) = some (-1, 0, true) ∧
    listed 2 (step (State.reset.withFetchWord 72 0x0_00C8_0064_03E8_0000)) = some 0xE8#8 ∧
    listed 2 (step (State.reset.withFetchWord 72 0xD_FFFF_FFFF_FFFF_FFFF)) = none := by decide

/-- H1 of 95_test_vectors.md 2.6: the write is seen by the very next decode. -/
theorem test_write_then_decode :
    newest (steps 2 { State.reset with
      pending := [.port (.write 0x0_0000_0000_2710_0000#68), .port (.decode 0#6)] }) = some (10000, 0, false) := by decide

/-! ### Witnesses: the hypotheses of the statements are met -/

theorem witness_DecodeOfEncode :
    (Instr.decUnknown40to47 47#6).wellFormed = true ∧ (Instr.decUnknown48to63 48#6).wellFormed = true ∧
    (Instr.wrf8to11 11#4 5#64).wellFormed = true ∧ (Instr.wrfIgnored14to15 14#4 5#64).wellFormed = true := by decide

theorem witness_EveryWordHitsItsRowAlone :
    opcodeRows[0]? = some ⟨.decode, 0x3F, 0⟩ ∧ opcodeRows[46]? = some ⟨.write, 0xE0000000000000000, 0xE0000000000000000⟩ := by decide

theorem witness_WriteWordCarriesEightOctets :
    (0#4 : FrameIx).toNat ≤ 12 ∧ (12#4 : FrameIx).toNat ≤ 12 ∧ 104 / 8 ≠ (12#4 : FrameIx).toNat := by decide

theorem witness_ByteStringsReadBack :
    (Instr.wrf12 1#64).wellFormed = true ∧ ([] : List Byte).length ≠ 1 ∧ ([] : List Byte).length ≠ 9 ∧
    [63#8].length = 1 ∧ leValue [63#8] < 64 ∧ [64#8].length = 1 ∧ 64 ≤ leValue [64#8] := by decide

theorem witness_DescriptorFollowsTheTagFormula :
    (0#6 : Tag).toNat ≤ 38 ∧ (38#6 : Tag).toNat ≤ 38 := by decide

theorem witness_DecodeFollowsTheDatapath :
    38 < (39#6 : Tag).toNat ∧ 38 < (63#6 : Tag).toNat ∧ (38#6 : Tag).toNat ≤ 38 := by decide

theorem witness_UnknownTagsReturnTheSentinel :
    (40 ≤ (40#6 : Tag).toNat ∧ (47#6 : Tag).toNat ≤ 47) ∧ (48 ≤ (48#6 : Tag).toNat ∧ (63#6 : Tag).toNat ≤ 63) := by decide

theorem witness_ResultRangesByKind :
    (Kind.ident, (-32768 : Int), (32767 : Int)) ∈ [(Kind.ident, -32768, 32767), (Kind.ofsM100, -32868, 32667)] := by decide

theorem witness_ExactValuesAreTheSourceFormulas :
    ∃ raw : Rat, raw = (signed16 (0x8000#16 : RawWord).toNat : Rat) := ⟨_, rfl⟩

theorem witness_FloatRenderingKeepsItsNamedValues :
    -163840 ≤ (BitVec.ofInt 32 (-163840)).toInt ∧ (163835#32 : MWord).toInt ≤ 163835 := by decide

theorem witness_DecodeIsLocal :
    ∀ d : Descriptor, desc? 0#6 = some d →
      (withFb [(2, 1#8), (3, 2#8)]).octet d.addr = (withFb [(2, 1#8), (3, 2#8), (4, 9#8)]).octet d.addr ∧
      (withFb [(2, 1#8), (3, 2#8)]).octet (d.addr + 1) = (withFb [(2, 1#8), (3, 2#8), (4, 9#8)]).octet (d.addr + 1) := by
  rintro d hd
  cases hd
  decide

theorem witness_DecodeIsLocal_unknown :
    ∀ d : Descriptor, desc? 39#6 = some d → State.reset.octet d.addr = (withFb [(2, 1#8)]).octet d.addr ∧
      State.reset.octet (d.addr + 1) = (withFb [(2, 1#8)]).octet (d.addr + 1) := by
  rintro d hd
  cases hd

theorem witness_HeaderOctetsAreNeverRead :
    ∀ a : Nat, a < 104 → 2 ≤ a % 8 → (withFb [(1, 7#8)]).octet a = (withFb [(1, 8#8)]).octet a := by
  intro a _ ha
  have hne : ¬ 1 = a := by omega
  simp [withFb, State.octet, State.reset, Memory.load, hne]

theorem witness_DecodeReachesTheWordsOfFb :
    desc? 38#6 = some ⟨12, 6, .ident⟩ := by decide

theorem witness_DecodeFrame :
    (∃ t : State, exec (decode (.decode 39#6)) State.reset = .next t) ∧
    ∃ t : State, (exec (decode (.decode 38#6)) State.reset = .next t ∧
      ∃ u : State, u ≠ t ∧ u.fb = t.fb ∧ u.draw = t.draw) := ⟨⟨_, rfl⟩, ⟨_, rfl, State.reset, by decide, rfl, rfl⟩⟩

theorem witness_LimiterFlagsSurviveTheSign :
    0 ≤ 15 ∧ 15 ≤ 15 := by decide

theorem witness_OnlyTheUnknownBitTellsTheSentinel :
    ∀ i : Instr, i = .decEct → i = .decEngineSpeed ∨ i = .decMgp ∨ i = .decEct := fun _ h => .inr (.inr h)

theorem witness_FrameWriteReplacesOneFrame :
    ((0#4 : FrameIx).toNat ≤ 7 ∧ (7#4 : FrameIx).toNat ≤ 7) ∧ (8 ≤ (8#4 : FrameIx).toNat ∧ (8#4 : FrameIx).toNat ≤ 11) ∧
    (8 ≤ (11#4 : FrameIx).toNat ∧ (11#4 : FrameIx).toNat ≤ 11) ∧ (12#4 : FrameIx).toNat = 12 := by decide

theorem witness_WriteOfNoFrameChangesNothing :
    13 ≤ (frameField 0xD_0000_0000_0000_0000#68).toNat ∧ 13 ≤ (frameField 0xF_0000_0000_0000_0000#68).toNat ∧
    14 ≤ (14#4 : FrameIx).toNat ∧ 14 ≤ (15#4 : FrameIx).toNat := by decide

theorem witness_WrittenWordReadsBack :
    (0#4 : FrameIx).toNat ≤ 12 ∧ (12#4 : FrameIx).toNat ≤ 12 ∧ (2 = 2 ∨ 2 = 4 ∨ 2 = 6) := by decide

theorem witness_WritesOfTwoFramesCommute :
    State.reset.fb.wf = true ∧ (withFb [(2, 1#8), (103, 2#8)]).fb.wf = true ∧ (0#4 : FrameIx) ≠ 12#4 := by decide

theorem witness_StepRunsTheDecodedTransaction :
    ({ State.reset with pending := [.port (.decode 0#6)] } : State).pending = .port (.decode 0#6) :: [] ∧
    ({ State.reset with pending := [.sameCycle 0#6 0#68] } : State).pending = .sameCycle 0#6 0#68 :: [] ∧
    ({ State.reset with pending := [.deliver] } : State).pending = .deliver :: [] ∧
    ({ State.reset with pending := [.reset] } : State).pending = .reset :: [] ∧
    State.reset.pending = [] ∧ State.reset.inFlight = [] := by decide

theorem witness_PlacedWordRunsNext :
    decodeTableWord 8 38 = some .decLimiterFlags ∧ decodeTableWord 72 0x0_0000_0000_0000_0007 = some (.wrf0to7 0#4 7#64) := by decide

theorem witness_WriteThenDecodeNeedsNoGap :
    ({ State.reset with pending := [.port (.write 0#68), .port (.decode 2#6)] } : State).pending =
      .port (.write 0#68) :: .port (.decode 2#6) :: [] ∧
    desc? 2#6 = some ⟨0, 6, .ofsM100⟩ ∧ (frameField 0#68).toNat = 0 ∧ (frameField 0x1_0000_0000_0000_0000#68).toNat ≠ 0 := by decide

theorem witness_SameCyclePairIsOneOfTwoOrders :
    ({ State.reset with pending := [.sameCycle 0#6 0x3_00FA_03E8_0028_0003#68] } : State).pending =
      .sameCycle 0#6 0x3_00FA_03E8_0028_0003#68 :: [] ∧
    ({ State.reset with pending := [.sameCycle 10#6 0x3_00FA_03E8_0028_0003#68] } : State).pending =
      .sameCycle 10#6 0x3_00FA_03E8_0028_0003#68 :: [] ∧
    ∀ d : Descriptor, desc? 0#6 = some d → d.frame.val ≠ (frameField 0x3_00FA_03E8_0028_0003#68).toNat := by
  refine ⟨rfl, rfl, ?_⟩
  rintro d hd
  cases hd
  decide

theorem witness_FbChangesOnlyByWriteOrReset :
    ∃ t : State, step { withFb [(2, 1#8)] with pending := [.port (.write 0#68)] } = .next t ∧
      t.octet 2 ≠ ({ withFb [(2, 1#8)] with pending := [.port (.write 0#68)] } : State).octet 2 := ⟨_, rfl, by decide⟩

theorem witness_HostResetRedrawsTheBuffer :
    ({ State.reset with pending := [.reset, .deliver] } : State).pending = .reset :: [.deliver] := by decide

theorem witness_ResultsReturnInOrder :
    (∃ t : State, step { State.reset with inFlight := [sentinel], pending := [.deliver] } = .next t) ∧
    (∀ rest : List Event, ({ State.reset with pending := [.deliver] } : State).pending ≠ .reset :: rest) ∧
    ∃ rest : List Event, ({ State.reset with pending := [.reset] } : State).pending = .reset :: rest := by
  refine ⟨⟨_, rfl⟩, ?_, ⟨[], rfl⟩⟩
  intro rest h
  cases h

theorem witness_EveryAcceptedDecodeIsAnswered :
    ({ State.reset with inFlight := [sentinel, sentinel] } : State).pending = [] ∧
    Event.reset ∉ ({ State.reset with pending := [.port (.decode 0#6), .sameCycle 63#6 0#68, .deliver] } : State).pending := by decide

theorem witness_StepKeepsTheInvariant :
    State.Inv { withFb [(2, 1#8), (103, 2#8)] with inFlight := [sentinel] } ∧
    ∃ t : State, step { withFb [(2, 1#8), (103, 2#8)] with inFlight := [sentinel] } = .next t := by
  refine ⟨⟨by decide, ?_⟩, ⟨_, rfl⟩⟩
  intro r hr
  have hr : r = sentinel := List.mem_singleton.1 hr
  exact hr ▸ sentinel_legal

end Sys2Proof.Tests
end

section
/-! PROOFS. The descriptor table in closed form: its rows are the words of frames 0 to 12, three to a frame
(30_encoding.md R62, R66). -/

namespace Sys2Proof.Machine

/-- DESC has one row per known tag, 0 to 38. -/
theorem descTable_length : descTable.length = 39 := rfl

/-- Row `i` of DESC lies in frame `i div 3`, at byte 2, 4 or 6 as `i mod 3` is 0, 1 or 2. -/
theorem descTable_getElem_place : ∀ i : Fin descTable.length,
    descTable[i].frame.val = i.val / 3 ∧ descTable[i].offset.val = 2 + 2 * (i.val % 3) := by decide

/-- The mux selects a known tag's own row. -/
theorem desc?_eq_getElem {tag : Tag} (h : tag.toNat < descTable.length) : desc? tag = some descTable[tag.toNat] :=
  List.getElem?_eq_getElem h

end Sys2Proof.Machine

namespace Sys2Proof
open Machine

/-- Settles O7: the descriptor is the tag's own row of DESC, and every row's place is the formula's. -/
theorem descriptorFollowsTheTagFormula : Obligations.DescriptorFollowsTheTagFormula := by
  intro tag hknown
  have hrow : tag.toNat < descTable.length := by
    rw [descTable_length]
    omega
  exact ⟨descTable[tag.toNat], desc?_eq_getElem hrow, descTable_getElem_place ⟨tag.toNat, hrow⟩⟩

end Sys2Proof
end

section
/-! PROOFS. Every decode request answers `State.decodeResult` (40_decode_datapath.md R80), and what that result is made
of: the sentinel for an unknown tag, the transform of the word at the binding for a known one. -/

namespace Sys2Proof.Machine

/-! ### The result of a decode -/

/-- An unknown tag has no descriptor (30_encoding.md R63). -/
theorem desc?_eq_none {tag : Tag} (h : 38 < tag.toNat) : desc? tag = none :=
  List.getElem?_eq_none h

/-- Only a known tag has a descriptor (30_encoding.md R63). -/
theorem toNat_le_of_desc? {tag : Tag} {d : Descriptor} (h : desc? tag = some d) : tag.toNat ≤ 38 := by
  refine Nat.not_lt.1 fun hunknown => ?_
  rw [desc?_eq_none hunknown] at h
  cases h

/-- Every known tag has a descriptor (30_encoding.md R66). -/
theorem exists_desc?_eq_some {tag : Tag} (h : tag.toNat ≤ 38) : ∃ d : Descriptor, desc? tag = some d :=
  ⟨_, desc?_eq_getElem (by rw [descTable_length]; omega)⟩

/-- An unknown tag's result is the sentinel, in every state (41_decode_parameters.md R139). -/
theorem State.decodeResult_of_unknown (s : State) {tag : Tag} (h : 38 < tag.toNat) : s.decodeResult tag = sentinel :=
  if_pos (decide_eq_true h)

/-- A known tag's result is the transform of the word at its binding (40_decode_datapath.md R80). -/
theorem State.decodeResult_of_desc? (s : State) {tag : Tag} {d : Descriptor} (h : desc? tag = some d) :
    s.decodeResult tag = transform d.kind (s.readWord d.addr) := by
  have hknown : ¬ 38 < tag.toNat := Nat.not_lt.2 (toNat_le_of_desc? h)
  simp [State.decodeResult, unkBit, hknown, h]

/-- A word depends on its two octets alone (20_memory.md R42). -/
theorem State.readWord_congr {s s' : State} {a : Nat} (hlow : s.octet a = s'.octet a)
    (hhigh : s.octet (a + 1) = s'.octet (a + 1)) : s.readWord a = s'.readWord a := by
  rw [State.readWord, State.readWord, hlow, hhigh]

/-- A decode's result depends on the two octets of its binding alone (40_decode_datapath.md R89). -/
theorem State.decodeResult_congr {s s' : State} {tag : Tag}
    (h : ∀ d : Descriptor, desc? tag = some d →
      s.octet d.addr = s'.octet d.addr ∧ s.octet (d.addr + 1) = s'.octet (d.addr + 1)) :
    s.decodeResult tag = s'.decodeResult tag := by
  by_cases hunknown : 38 < tag.toNat
  · rw [s.decodeResult_of_unknown hunknown, s'.decodeResult_of_unknown hunknown]
  · obtain ⟨d, hdesc⟩ := exists_desc?_eq_some (Nat.not_lt.1 hunknown)
    obtain ⟨hlow, hhigh⟩ := h d hdesc
    rw [s.decodeResult_of_desc? hdesc, s'.decodeResult_of_desc? hdesc, State.readWord_congr hlow hhigh]

/-! ### From the port word to the result -/

/-- The transaction of a decode request is well formed and carries the request's tag (30_encoding.md R61, R63, R68). -/
theorem decodeTag_carries_tag :
    ∀ tag : Tag, (decodeTag tag).wellFormed = true ∧ encode (decodeTag tag) = .decode tag := by decide

/-- The transaction of a decode request answers the result of its tag, and nothing else changes. -/
theorem returns_of_encode_eq {i : Instr} {tag : Tag} (s : State) (hwf : i.wellFormed = true)
    (henc : encode i = .decode tag) : Returns i s (s.decodeResult tag) := by
  cases i with
  | decUnknown40to47 n =>
    cases henc
    simp only [Instr.wellFormed, Bool.and_eq_true, decide_eq_true_eq] at hwf
    rw [s.decodeResult_of_unknown (by omega)]
    rfl
  | decUnknown48to63 n =>
    cases henc
    simp only [Instr.wellFormed, decide_eq_true_eq] at hwf
    rw [s.decodeResult_of_unknown (by omega)]
    rfl
  | wrf0to7 | wrf8to11 | wrf12 | wrfIgnored13 | wrfIgnored14to15 => cases henc
  | _ =>
    cases henc
    rfl

/-- Every decode request answers the result of its tag, and nothing else changes (40_decode_datapath.md R80). -/
theorem returns_decodeResult (tag : Tag) (s : State) : Returns (decode (.decode tag)) s (s.decodeResult tag) :=
  returns_of_encode_eq s (decodeTag_carries_tag tag).1 (decodeTag_carries_tag tag).2

/-- What answers a result issues it. -/
theorem Returns.eq_issue {i : Instr} {s t : State} {r : Result} (h : Returns i s r) (hexec : exec i s = .next t) :
    t = s.issue r := by
  rw [h] at hexec
  cases hexec
  rfl

/-! ### The exact value -/

/-- The four decimal-place counts as numbers (40_decode_datapath.md R85). -/
theorem dpWord_toNat :
    (0 : DpWord).toNat = 0 ∧ (1 : DpWord).toNat = 1 ∧ (2 : DpWord).toNat = 2 ∧ (3 : DpWord).toNat = 3 := by decide

/-- The exact value of a known decode's result (40_decode_datapath.md R86). -/
theorem transform_exact (kind : Kind) (raw16 : RawWord) :
    (transform kind raw16).exact = (kind.k * signed16 raw16.toNat + kind.c) / 10 ^ kind.dp.toNat := by
  rw [Result.exact, transform_m_toInt]
  push_cast
  rfl

end Sys2Proof.Machine

namespace Sys2Proof
open Machine

/-- Settles O8: the request answers `decodeResult`, which is the sentinel above tag 38 and the transform of the word at
the tag's binding up to 38. -/
theorem decodeFollowsTheDatapath : Obligations.DecodeFollowsTheDatapath := by
  intro tag s
  refine ⟨s.decodeResult tag, returns_decodeResult tag s, fun hunknown => ?_, fun hknown => ?_⟩
  · rw [s.decodeResult_of_unknown hunknown]
    exact ⟨rfl, rfl, rfl, rfl, rfl⟩
  · obtain ⟨d, hdesc⟩ := exists_desc?_eq_some hknown
    have hm : (transform d.kind (s.readWord d.addr)).m.toInt = d.kind.k * rawAt s d.addr + d.kind.c := by
      rw [transform_m_toInt, State.readWord_toNat, rawAt]
    rw [s.decodeResult_of_desc? hdesc]
    exact ⟨d, hdesc, hm, rfl, rfl, rfl⟩

/-- Settles O18: each kind's `(k*raw + c) / 10^dp` is its formula. -/
theorem exactValuesAreTheSourceFormulas : Obligations.ExactValuesAreTheSourceFormulas := by
  rintro raw16 raw rfl
  simp only [transform_exact, Kind.k, Kind.c, Kind.dp, dpWord_toNat]
  push_cast
  refine ⟨?_, ?_, ?_, ?_, ?_, ?_, ?_, ?_, ?_, ?_⟩ <;> grind

/-- Settles O20: in both states the request answers `decodeResult`, which the octets of the binding fix. -/
theorem decodeIsLocal : Obligations.DecodeIsLocal := by
  intro tag s s' hagree
  refine ⟨s.decodeResult tag, returns_decodeResult tag s, ?_⟩
  rw [State.decodeResult_congr hagree]
  exact returns_decodeResult tag s'

/-- Settles O23: a decode only issues its result, and equal FB and draw give equal octets, hence the same result. -/
theorem decodeFrame : Obligations.DecodeFrame := by
  intro tag s t hexec
  obtain rfl := (returns_decodeResult tag s).eq_issue hexec
  refine ⟨rfl, fun _ => rfl, rfl, rfl, rfl, rfl, s.decodeResult tag, rfl, fun u hfb hdraw => ?_⟩
  have hoctet (a : Nat) : s.octet a = u.octet a := State.octet_congr hfb.symm hdraw.symm a
  rw [State.decodeResult_congr fun d _ => ⟨hoctet d.addr, hoctet (d.addr + 1)⟩]
  exact returns_decodeResult tag u

end Sys2Proof
end

section
/-! PROOFS. The decode transactions of 41_decode_parameters.md: one rule for the known tags, from the tag's row of DESC
(R100 to R138), one for the unknown tags (R139), and the bits of the limiter flags' signed result (R140). -/

namespace Sys2Proof.Machine

/-! ### The rule of a known tag -/

/-- The row of DESC says everything about a known tag's decode: its binding and its `k`, `c` and `dp`
(30_encoding.md R66; 40_decode_datapath.md R80). -/
theorem decodesAs_of_row {i : Instr} {tag : Tag} (frame : Fin 13) (offset : Fin 8) (kind : Kind)
    (hdecode : decode (.decode tag) = i) (hrow : desc? tag = some ⟨frame, offset, kind⟩) :
    DecodesAs i tag frame.val offset.val kind.k kind.c kind.dp.toNat := by
  refine ⟨hdecode, fun s => ⟨s.decodeResult tag, hdecode ▸ returns_decodeResult tag s, ?_⟩⟩
  rw [s.decodeResult_of_desc? hrow]
  refine ⟨?_, rfl, rfl, rfl⟩
  rw [transform_m_toInt, State.readWord_toNat]
  rfl

/-- The exact value of a known tag's result (00_scope.md R9; 40_decode_datapath.md R86). -/
theorem DecodesAs.returns_exact {i : Instr} {tag : Tag} {frame offset dp : Nat} {k c : Int}
    (h : DecodesAs i tag frame offset k c dp) (s : State) :
    ∃ r : Result, Returns i s r ∧ r.exact = (k * rawAt s (8 * frame + offset) + c) / 10 ^ dp := by
  obtain ⟨r, hreturns, hm, hdp, -, -⟩ := h.2 s
  refine ⟨r, hreturns, ?_⟩
  rw [Result.exact, hm, hdp]
  push_cast
  rfl

/-! ### The rule of an unknown tag -/

/-- The decode of an unknown tag answers the sentinel, in every state (41_decode_parameters.md R139). -/
theorem returns_sentinel {i : Instr} {tag : Tag} (hdecode : decode (.decode tag) = i) (hunknown : 38 < tag.toNat)
    (s : State) : Returns i s sentinel := by
  rw [← hdecode, ← s.decodeResult_of_unknown hunknown]
  exact returns_decodeResult tag s

/-- The sentinel's exact value is -1 (41_decode_parameters.md R139). -/
theorem sentinel_exact : sentinel.exact = -1 := by
  have hm : sentinel.m.toInt = -1 := by decide
  have hdp : sentinel.dp.toNat = 0 := rfl
  rw [Result.exact, hm, hdp]
  grind

/-! ### The bits of a signed result -/

/-- The lowest bit of a signed word is its integer's remainder by 2. -/
theorem toInt_emod_two (m : MWord) : m.toInt % 2 = if m.getLsbD 0 then 1 else 0 := by
  have hbit : m.getLsbD 0 = decide (m.toNat % 2 = 1) := by
    rw [← BitVec.testBit_toNat, Nat.testBit_zero]
  rw [hbit, BitVec.toInt_eq_toNat_cond]
  simp only [decide_eq_true_eq]
  split <;> split <;> omega

/-- Bit `i` of a mantissa is the lowest bit after an arithmetic shift by `i`. -/
theorem getLsbD_sshiftRight_zero (m : MWord) {i : Nat} (hi : i < 32) : (m.sshiftRight i).getLsbD 0 = m.getLsbD i := by
  rw [BitVec.getLsbD_sshiftRight]
  simp [hi]

/-- The host's extraction reads bit `i` of the mantissa (41_decode_parameters.md R140). -/
theorem limiterFlag_eq_getLsbD (m : MWord) {i : Nat} (hi : i < 32) : limiterFlag m i = m.getLsbD i := by
  have hlow : m.sshiftRight i &&& 1 = BitVec.setWidth 32 (BitVec.ofBool ((m.sshiftRight i).getLsbD 0)) :=
    BitVec.and_one_eq_setWidth_ofBool_getLsbD
  rw [limiterFlag, hlow, getLsbD_sshiftRight_zero m hi]
  cases m.getLsbD i <;> rfl

/-- The arithmetic shift on integers reads bit `i` of the mantissa (41_decode_parameters.md R140). -/
theorem toInt_shiftRight_emod_two (m : MWord) {i : Nat} (hi : i < 32) :
    (m.toInt >>> i) % 2 = if m.getLsbD i then 1 else 0 := by
  rw [← BitVec.toInt_sshiftRight, toInt_emod_two, getLsbD_sshiftRight_zero m hi]

/-- A mantissa that is the signed reading of a word of FB keeps the word's 16 bits (40_decode_datapath.md R83). -/
theorem getLsbD_of_toInt_eq_rawAt {m : MWord} {s : State} {a : Nat} (hm : m.toInt = rawAt s a) {i : Nat} (hi : i < 16) :
    m.getLsbD i = (wordAt s a).testBit i := by
  have hext : m = signExtend (s.readWord a) := by
    apply BitVec.eq_of_toInt_eq
    rw [hm, signExtend_toInt, State.readWord_toNat, rawAt]
  have hi32 : i < 32 := by omega
  rw [hext, ← State.readWord_toNat, BitVec.testBit_toNat, signExtend, BitVec.getLsbD_signExtend, if_pos hi,
    decide_eq_true hi32, Bool.true_and]

end Sys2Proof.Machine

namespace Sys2Proof
open Machine

/-- Settles O9: the nine rows of kind `IDENT`. -/
theorem identityTagsDecode : Obligations.IdentityTagsDecode :=
  ⟨decodesAs_of_row 0 2 .ident rfl rfl, decodesAs_of_row 0 4 .ident rfl rfl, decodesAs_of_row 4 2 .ident rfl rfl,
    decodesAs_of_row 4 4 .ident rfl rfl, decodesAs_of_row 7 2 .ident rfl rfl, decodesAs_of_row 7 4 .ident rfl rfl,
    decodesAs_of_row 7 6 .ident rfl rfl, decodesAs_of_row 8 4 .ident rfl rfl, decodesAs_of_row 12 6 .ident rfl rfl⟩

/-- Settles O10: the row of kind `OFS_M100` and the three of kind `OFS_M50`. -/
theorem offsetTagsDecode : Obligations.OffsetTagsDecode :=
  ⟨decodesAs_of_row 0 6 .ofsM100 rfl rfl, decodesAs_of_row 2 6 .ofsM50 rfl rfl, decodesAs_of_row 3 2 .ofsM50 rfl rfl,
    decodesAs_of_row 8 2 .ofsM50 rfl rfl⟩

/-- Settles O11: the eleven rows of kind `SCL_0_1`. -/
theorem tenthTagsDecode : Obligations.TenthTagsDecode :=
  ⟨decodesAs_of_row 1 2 .scl01 rfl rfl, decodesAs_of_row 1 4 .scl01 rfl rfl, decodesAs_of_row 1 6 .scl01 rfl rfl,
    decodesAs_of_row 2 2 .scl01 rfl rfl, decodesAs_of_row 3 6 .scl01 rfl rfl, decodesAs_of_row 5 2 .scl01 rfl rfl,
    decodesAs_of_row 5 4 .scl01 rfl rfl, decodesAs_of_row 8 6 .scl01 rfl rfl, decodesAs_of_row 9 2 .scl01 rfl rfl,
    decodesAs_of_row 9 4 .scl01 rfl rfl, decodesAs_of_row 9 6 .scl01 rfl rfl⟩

/-- Settles O12: the row of kind `SCL_0_01` and the three of kind `SCL_0_001`. -/
theorem hundredthAndThousandthTagsDecode : Obligations.HundredthAndThousandthTagsDecode :=
  ⟨decodesAs_of_row 2 4 .scl0001 rfl rfl, decodesAs_of_row 3 4 .scl001 rfl rfl, decodesAs_of_row 6 4 .scl0001 rfl rfl,
    decodesAs_of_row 6 6 .scl0001 rfl rfl⟩

/-- Settles O13: the eight rows of kind `SCL_5`. -/
theorem knockTagsDecode : Obligations.KnockTagsDecode :=
  ⟨decodesAs_of_row 10 2 .scl5 rfl rfl, decodesAs_of_row 10 4 .scl5 rfl rfl, decodesAs_of_row 10 6 .scl5 rfl rfl,
    decodesAs_of_row 11 2 .scl5 rfl rfl, decodesAs_of_row 11 4 .scl5 rfl rfl, decodesAs_of_row 11 6 .scl5 rfl rfl,
    decodesAs_of_row 12 2 .scl5 rfl rfl, decodesAs_of_row 12 4 .scl5 rfl rfl⟩

/-- Settles O14: the two rows of kind `SCL_N0_1`. -/
theorem exhaustCamTagsDecode : Obligations.ExhaustCamTagsDecode :=
  ⟨decodesAs_of_row 5 6 .sclN01 rfl rfl, decodesAs_of_row 6 2 .sclN01 rfl rfl⟩

/-- Settles O15: the row of kind `SCL_0_1_OFS_M100`, whose exact value `(raw - 1000) / 10` is `raw / 10 - 100`. -/
theorem ignitionTimingDecodes : Obligations.IgnitionTimingDecodes := by
  have hrule : DecodesAs .decIgnTiming 0b001110#6 4 6 1 (-1000) 1 := decodesAs_of_row 4 6 .scl01OfsM100 rfl rfl
  refine ⟨hrule, fun s => ?_⟩
  obtain ⟨r, hreturns, hexact⟩ := hrule.returns_exact s
  refine ⟨r, hreturns, ?_⟩
  rw [hexact]
  push_cast
  grind

/-- Settles O24: the mantissa is the signed reading of the word, so its lower 16 bits are the word's, bit 15 among
them. -/
theorem limiterFlagsSurviveTheSign : Obligations.LimiterFlagsSurviveTheSign := by
  intro s
  have hrule : DecodesAs .decLimiterFlags 0b100110#6 12 6 1 0 0 := decodesAs_of_row 12 6 .ident rfl rfl
  obtain ⟨r, hreturns, hm, -⟩ := hrule.2 s
  have hraw : r.m.toInt = rawAt s 102 := by simpa using hm
  refine ⟨r, hreturns, fun i hi => ?_⟩
  have hi32 : i < 32 := by omega
  rw [limiterFlag_eq_getLsbD r.m hi32, toInt_shiftRight_emod_two r.m hi32, getLsbD_of_toInt_eq_rawAt hraw (by omega)]
  exact ⟨rfl, rfl⟩

/-- Settles O16: an unknown tag's word is its own transaction's, and each of them answers the sentinel. -/
theorem unknownTagsReturnTheSentinel : Obligations.UnknownTagsReturnTheSentinel := by
  refine ⟨sentinel, rfl, rfl, sentinel_exact, rfl, returns_sentinel (tag := 39#6) rfl (by decide), ?_, ?_⟩
  · intro tag hlow hhigh
    have hdecode := Laws.RoundTrip.decUnknown40to47 tag (by simp [Instr.wellFormed, hlow, hhigh])
    exact ⟨hdecode, returns_sentinel hdecode (by omega)⟩
  · intro tag hlow _
    have hdecode := Laws.RoundTrip.decUnknown48to63 tag (by simp [Instr.wellFormed, hlow])
    exact ⟨hdecode, returns_sentinel hdecode (by omega)⟩

end Sys2Proof
end

section
/-! PROOFS. The frame writes: a write word runs `State.writeFrame` on its two fields, which replaces the octets of a frame
that exists (42_frame_write.md R150) and does nothing for an index of no frame (R151). -/

namespace Sys2Proof.Machine

/-- When a header octet is not stored (10_state.md R22, R33). -/
theorem headerDropped_eq_true_iff (a : Nat) : headerDropped a = true ↔ a % 8 < 2 ∧ Config.storeHeaderBytes = false := by
  simp [headerDropped]

/-- A write word's transaction writes its data field to the frame of its frame field, in all five rows of the opcode map
(30_encoding.md R60, R64; 42_frame_write.md R150, R151). -/
theorem exec_decode_write (bits : BitVec 68) (s : State) :
    exec (decode (.write bits)) s = .next (s.writeFrame (frameField bits) (dataField bits)) := by
  change exec (decodeWrite bits) s = _
  unfold decodeWrite
  split
  · rfl
  split
  · rfl
  split
  · have h12 : frameField bits = 12#4 := BitVec.eq_of_toNat_eq (by simp only [BitVec.toNat_ofNat]; omega)
    rw [h12]
    rfl
  · rw [State.writeFrame_of_ge (by simp only [Config.numFrames]; omega)]
    split <;> rfl

/-- Writing a frame that exists changes FB alone. -/
theorem State.writeFrame_only_fb (s : State) {frame : FrameIx} (data : FrameData) (h : frame.toNat < Config.numFrames) :
    s.writeFrame frame data = { s with fb := (s.writeFrame frame data).fb } := by
  rw [State.writeFrame_of_lt h]

/-- What an address reads as after writing a frame that exists, by its distance from the frame's first address
(20_memory.md R40, R41). -/
theorem State.writeFrame_octet_of_lt (s : State) {frame : FrameIx} (data : FrameData)
    (h : frame.toNat < Config.numFrames) (a : Nat) :
    (s.writeFrame frame data).octet a =
      if frameAddr frame ≤ a ∧ a < frameAddr frame + 8 then
        if a % 8 < 2 ∧ Config.storeHeaderBytes = false then s.octet a
        else data.extractLsb' (8 * (a - frameAddr frame)) 8
      else s.octet a := by
  rw [State.writeFrame_octet]
  by_cases hin : frameAddr frame ≤ a ∧ a < frameAddr frame + 8
  · have hdiv : a / 8 = frame.toNat := by rw [frameAddr] at hin; omega
    have hmod : a % 8 = a - frameAddr frame := by rw [frameAddr]; omega
    rw [if_pos hin]
    by_cases hdropped : headerDropped a = true
    · rw [if_neg (by simp [hdropped]), if_pos ((headerDropped_eq_true_iff a).1 hdropped)]
    · rw [if_pos ⟨h, hdiv, Bool.eq_false_iff.2 hdropped⟩, if_neg (mt (headerDropped_eq_true_iff a).2 hdropped), hmod]
      rfl
  · have hdiv : a / 8 ≠ frame.toNat := by rw [frameAddr] at hin; omega
    rw [if_neg hin, if_neg fun hwritten => hdiv hwritten.2.1]

/-- A transaction that runs `State.writeFrame` on a frame that exists follows the frame write rule (42_frame_write.md
R150). -/
theorem writesFrame_of_exec_eq {i : Instr} {frame : FrameIx} {data : FrameData} (h : frame.toNat < Config.numFrames)
    (hexec : ∀ s : State, exec i s = .next (s.writeFrame frame data)) : WritesFrame i frame data :=
  fun s => ⟨_, hexec s, s.writeFrame_only_fb data h, s.writeFrame_octet_of_lt data h⟩

end Sys2Proof.Machine

namespace Sys2Proof
open Machine

/-- Settles O26: each of the three transactions runs `State.writeFrame` on its frame, which exists. -/
theorem frameWriteReplacesOneFrame : Obligations.FrameWriteReplacesOneFrame := by
  intro frame data
  have hnum : Config.numFrames = 13 := rfl
  refine ⟨fun h7 => ?_, fun _ h11 => ?_, fun h12 => ?_⟩
  · exact writesFrame_of_exec_eq (by omega) fun _ => rfl
  · exact writesFrame_of_exec_eq (by omega) fun _ => rfl
  · obtain rfl : frame = 12#4 := BitVec.eq_of_toNat_eq h12
    exact writesFrame_of_exec_eq (by omega) fun _ => rfl

/-- Settles O27: a write word runs `State.writeFrame`, which does nothing from index 13 on; the two ignored transactions
keep the state by their meaning. -/
theorem writeOfNoFrameChangesNothing : Obligations.WriteOfNoFrameChangesNothing := by
  refine ⟨fun bits hnone s => ?_, fun _ _ => rfl, fun _ _ _ _ => rfl⟩
  rw [exec_decode_write, State.writeFrame_of_ge hnone]

end Sys2Proof
end

section
/-! PROOFS. Port words and transactions: the round trips through `encode` and `decode`, and the rows of the
opcode map (30_encoding.md R60 to R71). -/

namespace Sys2Proof
open Machine

/-! ### The round trips -/

/-- Every transaction keeps its round trip through its port word: the rows with a field by their own lemmas, the others
by their constant words (30_encoding.md R61). -/
theorem roundTrip (i : Instr) : Laws.RoundTrip.Statement i := by
  cases i with
  | decUnknown40to47 tag => exact Laws.RoundTrip.decUnknown40to47 tag
  | decUnknown48to63 tag => exact Laws.RoundTrip.decUnknown48to63 tag
  | wrf0to7 frame data => exact Laws.RoundTrip.wrf0to7 frame data
  | wrf8to11 frame data => exact Laws.RoundTrip.wrf8to11 frame data
  | wrf12 data => exact Laws.RoundTrip.wrf12 data
  | wrfIgnored13 data => exact Laws.RoundTrip.wrfIgnored13 data
  | wrfIgnored14to15 frame data => exact Laws.RoundTrip.wrfIgnored14to15 frame data
  | _ => exact fun _ => rfl

/-- The two fields of a write word are all of its bits (30_encoding.md R60). -/
theorem writeWord_fields (bits : BitVec 68) : writeWord (frameField bits) (dataField bits) = .write bits :=
  congrArg PortWord.write BitVec.extractLsb'_append_extractLsb'

/-- The transaction of a frame write is well formed and carries every bit of the word (30_encoding.md R64, R68). -/
theorem decodeWrite_carries_bits (bits : BitVec 68) :
    (decodeWrite bits).wellFormed = true ∧ encode (decodeWrite bits) = .write bits := by
  have hlt := (frameField bits).isLt
  have hfields := writeWord_fields bits
  unfold decodeWrite
  split
  · next h7 => exact ⟨decide_eq_true h7, hfields⟩
  split
  · next h7 h11 => exact ⟨by simp only [Instr.wellFormed, Bool.and_eq_true, decide_eq_true_eq]; omega, hfields⟩
  split
  · next h11 h12 =>
    have hframe : frameField bits = 12#4 := BitVec.eq_of_toNat_eq (by simp only [BitVec.toNat_ofNat]; omega)
    rw [hframe] at hfields
    exact ⟨rfl, hfields⟩
  split
  · next h12 h13 =>
    have hframe : frameField bits = 13#4 := BitVec.eq_of_toNat_eq (by simp only [BitVec.toNat_ofNat]; omega)
    rw [hframe] at hfields
    exact ⟨rfl, hfields⟩
  · next h13 => exact ⟨decide_eq_true (by omega), hfields⟩

/-! ### The opcode map -/

/-- A row of the write port looks at the frame field alone (30_encoding.md R71). -/
theorem opcodeRows_write_mask : ∀ n : Fin opcodeRows.length,
    opcodeRows[n].port = .decode ∨ opcodeRows[n].mask % 2 ^ 64 = 0 := by decide

/-- The frame field of a write word as a number. -/
theorem frameField_toNat (bits : BitVec 68) : (frameField bits).toNat = bits.toNat / 2 ^ 64 := by
  have hlt := bits.isLt
  rw [frameField, BitVec.extractLsb'_toNat, Nat.shiftRight_eq_div_pow]
  omega

/-- A mask with no bit in the data field keeps bits of the frame field alone. -/
theorem toNat_and_mask (bits : BitVec 68) {mask : Nat} (hmask : mask % 2 ^ 64 = 0) :
    bits.toNat &&& mask = ((frameField bits).toNat &&& mask / 2 ^ 64) * 2 ^ 64 := by
  have hmod : (bits.toNat &&& mask) % 2 ^ 64 = 0 := by rw [Nat.and_mod_two_pow, hmask, Nat.and_zero]
  have hdiv : (bits.toNat &&& mask) / 2 ^ 64 = (frameField bits).toNat &&& mask / 2 ^ 64 := by
    rw [Nat.and_div_two_pow, frameField_toNat]
  rw [← hdiv, Nat.div_mul_cancel (Nat.dvd_of_mod_eq_zero hmod)]

/-- Whether a row matches a write word depends on the word's frame field alone. -/
theorem OpcodeRow.hits_write_congr {row : OpcodeRow} (hrow : row.port = .decode ∨ row.mask % 2 ^ 64 = 0)
    {bits bits' : BitVec 68} (hframe : frameField bits = frameField bits') :
    row.hits (.write bits) = row.hits (.write bits') := by
  obtain hport | hmask := hrow
  · simp [OpcodeRow.hits, PortWord.port, hport]
  · rw [OpcodeRow.hits, OpcodeRow.hits, PortWord.value, PortWord.value, toNat_and_mask bits hmask,
      toNat_and_mask bits' hmask, hframe, PortWord.port, PortWord.port]

/-- The row of a frame write's transaction, by the range its frame field is in (30_encoding.md R64, R71). -/
theorem row_decodeWrite (bits : BitVec 68) : (decodeWrite bits).row =
    if (frameField bits).toNat ≤ 7 then 42
    else if (frameField bits).toNat ≤ 11 then 43
    else if (frameField bits).toNat ≤ 12 then 44
    else if (frameField bits).toNat ≤ 13 then 45
    else 46 := by
  rw [decodeWrite, apply_ite Instr.row, apply_ite Instr.row, apply_ite Instr.row, apply_ite Instr.row]
  rfl

/-- Every decode request matches the row of its transaction and no other (30_encoding.md R61, R63, R71). -/
theorem hits_decode_iff : ∀ (tag : Tag) (n : Fin opcodeRows.length),
    (opcodeRows[n].hits (.decode tag) = true ↔ n.val = (decodeTag tag).row) := by decide

/-- Every frame index, with no data, matches the row of its transaction and no other (30_encoding.md R64, R71). -/
theorem hits_write_zero_iff : ∀ (frame : FrameIx) (n : Fin opcodeRows.length),
    (opcodeRows[n].hits (.write (frame ++ 0#64)) = true ↔ n.val = (decodeWrite (frame ++ 0#64)).row) := by decide

/-- Every port word matches the row of its transaction and no other (30_encoding.md R71). -/
theorem hits_iff (word : PortWord) (n : Fin opcodeRows.length) :
    opcodeRows[n].hits word = true ↔ n.val = (decode word).row := by
  cases word with
  | decode tag => exact hits_decode_iff tag n
  | write bits =>
    have hframe : frameField bits = frameField (frameField bits ++ 0#64) :=
      (Laws.frameField_append (frameField bits) 0#64).symm
    rw [OpcodeRow.hits_write_congr (opcodeRows_write_mask n) hframe, hits_write_zero_iff, decode,
      row_decodeWrite, row_decodeWrite, ← hframe]

/-- Every transaction's row is in the opcode map. -/
theorem Instr.row_lt (i : Instr) : i.row < 47 := by
  cases i <;> simp [Instr.row]

/-! ### The obligations -/

/-- Settles O2: the round trip of every transaction. -/
theorem decodeOfEncode : Obligations.DecodeOfEncode := roundTrip

/-- Settles O3: on each port the decoded transaction carries the whole word. -/
theorem encodeOfDecode : Obligations.EncodeOfDecode := by
  intro word
  cases word with
  | decode tag => exact decodeTag_carries_tag tag
  | write bits => exact decodeWrite_carries_bits bits

/-- Settles O4: a row is in the map exactly when its number is below 47, and it matches by `hits_iff`. -/
theorem everyWordHitsItsRowAlone : Obligations.EveryWordHitsItsRowAlone := by
  refine ⟨rfl, fun word => ⟨Instr.row_lt _, fun n row hrow => ?_⟩⟩
  obtain ⟨hn, rfl⟩ := List.getElem?_eq_some_iff.1 hrow
  exact hits_iff word ⟨n, hn⟩

/-- Settles O1: each word is decoded by computation. -/
theorem portWordsReadAsEncoded : Obligations.PortWordsReadAsEncoded := by
  unfold Obligations.PortWordsReadAsEncoded
  decide

end Sys2Proof
end

section
/-! PROOFS. The byte layout of port words (log entry 11): what a byte string lays out, and that the bytes of a word lay
it out; a placed word is the next to run (log entry 5). -/

namespace Sys2Proof.Machine

/-! ### Little-endian bytes -/

@[simp] theorem leBytes_length (count value : Nat) : (leBytes count value).length = count := by
  induction count generalizing value with
  | zero => rfl
  | succ count ih => rw [leBytes, List.length_cons, ih]

/-- The bytes of a number that fits in them stand for it. -/
theorem leValue_leBytes {count value : Nat} (h : value < 256 ^ count) : leValue (leBytes count value) = value := by
  induction count generalizing value with
  | zero =>
    rw [Nat.pow_zero] at h
    rw [leBytes, leValue]
    omega
  | succ count ih =>
    have hhigh : value / 256 < 256 ^ count := by
      rw [Nat.pow_succ] at h
      exact Nat.div_lt_of_lt_mul (by rwa [Nat.mul_comm])
    rw [leBytes, leValue, ih hhigh, BitVec.toNat_ofNat]
    exact Nat.mod_add_div value 256

/-! ### The port word a byte string lays out -/

theorem portWordOfBytes_decode {bytes : List Byte} (hlen : bytes.length = 1) (hval : leValue bytes < 2 ^ 6) :
    portWordOfBytes bytes = .ok (.decode (BitVec.ofNat 6 (leValue bytes))) := by
  rw [portWordOfBytes, if_pos hlen, if_pos hval]

theorem portWordOfBytes_write {bytes : List Byte} (hlen : bytes.length = 9) (hval : leValue bytes < 2 ^ 68) :
    portWordOfBytes bytes = .ok (.write (BitVec.ofNat 68 (leValue bytes))) := by
  rw [portWordOfBytes, if_neg (by omega), if_pos hlen, if_pos hval]

theorem portWordOfBytes_badLength {bytes : List Byte} (h1 : bytes.length ≠ 1) (h9 : bytes.length ≠ 9) :
    portWordOfBytes bytes = .error (.badLength bytes.length) := by
  rw [portWordOfBytes, if_neg h1, if_neg h9]

theorem portWordOfBytes_padding {bytes : List Byte}
    (h : (bytes.length = 1 ∧ 2 ^ 6 ≤ leValue bytes) ∨ (bytes.length = 9 ∧ 2 ^ 68 ≤ leValue bytes)) :
    portWordOfBytes bytes = .error .paddingNotZero := by
  obtain ⟨hlen, hval⟩ | ⟨hlen, hval⟩ := h
  · rw [portWordOfBytes, if_pos hlen, if_neg (Nat.not_lt.2 hval)]
  · rw [portWordOfBytes, if_neg (by omega), if_pos hlen, if_neg (Nat.not_lt.2 hval)]

/-- The bytes of a port word lay it out. -/
theorem portWordOfBytes_bytes (word : PortWord) : portWordOfBytes word.bytes = .ok word := by
  cases word with
  | decode tag =>
    have hval : leValue (leBytes 1 tag.toNat) = tag.toNat := leValue_leBytes (by have := tag.isLt; omega)
    rw [PortWord.bytes, portWordOfBytes_decode (leBytes_length 1 _) (hval.symm ▸ tag.isLt), hval, BitVec.ofNat_toNat,
      BitVec.setWidth_eq]
  | write bits =>
    have hval : leValue (leBytes 9 bits.toNat) = bits.toNat := leValue_leBytes (by have := bits.isLt; omega)
    rw [PortWord.bytes, portWordOfBytes_write (leBytes_length 9 _) (hval.symm ▸ bits.isLt), hval, BitVec.ofNat_toNat,
      BitVec.setWidth_eq]

/-! ### The transaction of a byte string -/

theorem decodeBytes_of_ok {bytes : List Byte} {word : PortWord} (h : portWordOfBytes bytes = .ok word) :
    decodeBytes bytes = .ok (decode word) := by
  rw [decodeBytes, h]
  rfl

theorem decodeBytes_of_error {bytes : List Byte} {e : DecodeError} (h : portWordOfBytes bytes = .error e) :
    decodeBytes bytes = .error e := by
  rw [decodeBytes, h]
  rfl

/-- A byte string decodes to a transaction exactly when it lays out a port word. -/
theorem exists_decodeBytes_iff (bytes : List Byte) :
    (∃ i : Instr, decodeBytes bytes = .ok i) ↔
      (bytes.length = 1 ∧ leValue bytes < 2 ^ 6) ∨ (bytes.length = 9 ∧ leValue bytes < 2 ^ 68) := by
  refine ⟨fun ⟨i, hi⟩ => ?_, ?_⟩
  · refine Decidable.byContradiction fun hnone => ?_
    have hrefused : ∃ e, portWordOfBytes bytes = .error e := by
      by_cases hlen : bytes.length = 1 ∨ bytes.length = 9
      · exact ⟨_, portWordOfBytes_padding (by omega)⟩
      · exact ⟨_, portWordOfBytes_badLength (by omega) (by omega)⟩
    obtain ⟨e, he⟩ := hrefused
    rw [decodeBytes_of_error he] at hi
    cases hi
  · rintro (⟨hlen, hval⟩ | ⟨hlen, hval⟩)
    · exact ⟨_, decodeBytes_of_ok (portWordOfBytes_decode hlen hval)⟩
    · exact ⟨_, decodeBytes_of_ok (portWordOfBytes_write hlen hval)⟩

/-- A word of the opcode map that decodes is placed first in line, as the port word of its transaction. -/
theorem State.withFetchWord_of_decodeTableWord {nbits w : Nat} {i : Instr} (h : decodeTableWord nbits w = some i)
    (s : State) : ∃ word : PortWord, decode word = i ∧
      s.withFetchWord nbits w = { s with pending := .port word :: s.pending } := by
  cases hword : portWordOfBytes (bytesOfTableWord nbits w) with
  | error e =>
    rw [decodeTableWord, decodeBytes_of_error hword] at h
    cases h
  | ok word =>
    rw [decodeTableWord, decodeBytes_of_ok hword] at h
    refine ⟨word, Option.some.inj h, ?_⟩
    rw [State.withFetchWord, placeFirst, hword]

end Sys2Proof.Machine

namespace Sys2Proof
open Machine

/-- Settles O6: the bytes of the encoding lay out its word, which decodes back; any other byte string has a wrong length
or a bit above its format. -/
theorem byteStringsReadBack : Obligations.ByteStringsReadBack := by
  refine ⟨fun i hwf => ?_, exists_decodeBytes_iff, fun bytes h1 h9 => ?_, fun bytes h => ?_⟩
  · rw [decodeBytes_of_ok (portWordOfBytes_bytes _), roundTrip i hwf]
  · exact decodeBytes_of_error (portWordOfBytes_badLength h1 h9)
  · exact decodeBytes_of_error (portWordOfBytes_padding h)

/-- Settles O31: the placed word is the next event, and taking it gives back the state it was placed in. -/
theorem placedWordRunsNext : Obligations.PlacedWordRunsNext := by
  intro s nbits w i h
  obtain ⟨word, rfl, hplaced⟩ := s.withFetchWord_of_decodeTableWord h
  rw [hplaced, step_port (rest := s.pending) rfl]

end Sys2Proof
end

section
/-! PROOFS. The decodes against the frame buffer: the octets they read (20_memory.md R41, R44; 10_state.md R24), the
range of each kind's mantissa and its 19 bits (40_decode_datapath.md R88), the unknown bit (90_conflicts.md C4), and the
named float values (R87). -/

namespace Sys2Proof.Machine

/-! ### The addresses of the bindings -/

/-- The address of a known tag's binding (30_encoding.md R62; 20_memory.md R41). -/
theorem addr_of_desc? {tag : Tag} {d : Descriptor} (h : desc? tag = some d) :
    d.addr = 8 * (tag.toNat / 3) + (2 + 2 * (tag.toNat % 3)) := by
  obtain ⟨d', hdesc, hframe, hoffset⟩ := descriptorFollowsTheTagFormula tag (toNat_le_of_desc? h)
  obtain rfl := Option.some.inj (h.symm.trans hdesc)
  rw [Descriptor.addr, hframe, hoffset]

/-- A binding's word has an even address and lies whole in the bytes 2 to 7 of a frame (20_memory.md R41, R44). -/
theorem addr_bounds_of_desc? {tag : Tag} {d : Descriptor} (h : desc? tag = some d) :
    d.addr % 2 = 0 ∧ 2 ≤ d.addr % 8 ∧ d.addr % 8 ≤ 6 ∧ d.addr + 1 < 104 := by
  have hknown := toNat_le_of_desc? h
  rw [addr_of_desc? h]
  omega

/-- Every octet at bytes 2 to 7 of a frame is one of the two of some binding (20_memory.md R44). -/
theorem exists_desc?_reading {a : Nat} (ha : a < 104) (hbyte : 2 ≤ a % 8) :
    ∃ (tag : Tag) (d : Descriptor), desc? tag = some d ∧ (a = d.addr ∨ a = d.addr + 1) := by
  have htag : (BitVec.ofNat 6 (3 * (a / 8) + (a % 8 - 2) / 2)).toNat = 3 * (a / 8) + (a % 8 - 2) / 2 := by
    rw [BitVec.toNat_ofNat]
    omega
  obtain ⟨d, hdesc⟩ := exists_desc?_eq_some (tag := BitVec.ofNat 6 (3 * (a / 8) + (a % 8 - 2) / 2)) (by omega)
  refine ⟨_, d, hdesc, ?_⟩
  rw [addr_of_desc? hdesc, htag]
  omega

/-! ### The range of a kind's mantissa -/

/-- The mantissa of a kind stays between two bounds and reaches both (40_decode_datapath.md R88). -/
def Kind.HasRange (kind : Kind) (low high : Int) : Prop :=
  (∀ raw16 : RawWord, low ≤ (transform kind raw16).m.toInt ∧ (transform kind raw16).m.toInt ≤ high) ∧
  (∃ raw16 : RawWord, (transform kind raw16).m.toInt = low) ∧
  (∃ raw16 : RawWord, (transform kind raw16).m.toInt = high)

/-- The pattern of the smallest raw value. -/
theorem transform_smallest (kind : Kind) : (transform kind 0x8000#16).m.toInt = kind.k * (-32768) + kind.c :=
  transform_m_toInt kind _

/-- The pattern of the largest raw value. -/
theorem transform_largest (kind : Kind) : (transform kind 0x7FFF#16).m.toInt = kind.k * 32767 + kind.c :=
  transform_m_toInt kind _

/-- A multiplier that is not negative takes the smallest raw value to the low end. -/
theorem Kind.hasRange_of_nonneg {kind : Kind} (hk : 0 ≤ kind.k) :
    kind.HasRange (kind.k * (-32768) + kind.c) (kind.k * 32767 + kind.c) := by
  refine ⟨fun raw16 => ?_, ⟨_, transform_smallest kind⟩, ⟨_, transform_largest kind⟩⟩
  obtain ⟨hlow, hhigh⟩ := signed16_range raw16.isLt
  rw [transform_m_toInt]
  exact ⟨Int.add_le_add_right (Int.mul_le_mul_of_nonneg_left hlow hk) _,
    Int.add_le_add_right (Int.mul_le_mul_of_nonneg_left hhigh hk) _⟩

/-- A multiplier that is not positive takes the largest raw value to the low end. -/
theorem Kind.hasRange_of_nonpos {kind : Kind} (hk : kind.k ≤ 0) :
    kind.HasRange (kind.k * 32767 + kind.c) (kind.k * (-32768) + kind.c) := by
  refine ⟨fun raw16 => ?_, ⟨_, transform_largest kind⟩, ⟨_, transform_smallest kind⟩⟩
  obtain ⟨hlow, hhigh⟩ := signed16_range raw16.isLt
  rw [transform_m_toInt]
  exact ⟨Int.add_le_add_right (Int.mul_le_mul_of_nonpos_left hk hhigh) _,
    Int.add_le_add_right (Int.mul_le_mul_of_nonpos_left hk hlow) _⟩

/-- A signed word between -2^18 and 2^18 - 1 is the sign extension of its low 19 bits. -/
theorem eq_signExtend_nineteen_bits {m : MWord} (hlow : -262144 ≤ m.toInt) (hhigh : m.toInt < 262144) :
    m = (m.setWidth 19).signExtend 32 := by
  apply BitVec.eq_of_toInt_eq
  have hcong : (m.toNat : Int).bmod (2 ^ 19) = m.toInt.bmod (2 ^ 19) := by
    rw [BitVec.toInt_eq_toNat_bmod, Int.bmod_bmod_of_dvd (by decide)]
  rw [BitVec.toInt_signExtend_of_le (by omega), BitVec.toInt_setWidth, hcong, Int.bmod_eq_of_le (by omega) (by omega)]

/-- The mantissa of every kind fits in 19 bits (40_decode_datapath.md R88). -/
theorem transform_m_bounds (kind : Kind) (raw16 : RawWord) :
    -262144 ≤ (transform kind raw16).m.toInt ∧ (transform kind raw16).m.toInt < 262144 := by
  obtain ⟨hlow, hhigh⟩ := signed16_range raw16.isLt
  rw [transform_m_toInt]
  cases kind <;> simp only [Kind.k, Kind.c] <;> omega

/-! ### The unknown bit and the sentinel's value -/

/-- A decode's result carries the unknown bit of its tag (40_decode_datapath.md R80, R81). -/
theorem State.decodeResult_unk (s : State) (tag : Tag) : (s.decodeResult tag).unk = true ↔ 38 < tag.toNat := by
  by_cases hunknown : 38 < tag.toNat
  · rw [s.decodeResult_of_unknown hunknown]
    exact iff_of_true rfl hunknown
  · obtain ⟨d, hdesc⟩ := exists_desc?_eq_some (Nat.not_lt.1 hunknown)
    rw [s.decodeResult_of_desc? hdesc]
    exact iff_of_false Bool.false_ne_true hunknown

/-- A known tag with `k = 1` and `dp = 0` reaches the sentinel's value -1 where its raw value is `-1 - c`. -/
theorem DecodesAs.returns_minus_one {i : Instr} {tag : Tag} {frame offset : Nat} {c : Int}
    (h : DecodesAs i tag frame offset 1 c 0) {s : State} (hraw : rawAt s (8 * frame + offset) = -1 - c) :
    ∃ r : Result, Returns i s r ∧ r.exact = -1 ∧ r.unk = false := by
  obtain ⟨r, hreturns, hm, hdp, hunk, -⟩ := h.2 s
  have hm' : r.m.toInt = -1 := by omega
  refine ⟨r, hreturns, ?_, hunk⟩
  rw [Result.exact, hm', hdp]
  grind

end Sys2Proof.Machine

namespace Sys2Proof
open Machine

/-- Settles O17: eight kinds rise with the raw value and one falls, and all of them stay in 19 bits. -/
theorem resultRangesByKind : Obligations.ResultRangesByKind := by
  refine ⟨fun kind raw16 => ?_, fun kind low high hrow => ?_⟩
  · obtain ⟨hlow, hhigh⟩ := transform_m_bounds kind raw16
    exact eq_signExtend_nineteen_bits hlow hhigh
  · change kind.HasRange low high
    cases kind <;> simp only [List.mem_cons, List.not_mem_nil, Prod.mk.injEq, reduceCtorEq, true_and, false_and,
      or_false, false_or] at hrow <;> obtain ⟨rfl, rfl⟩ := hrow
    case sclN01 => exact Kind.hasRange_of_nonpos (by decide)
    all_goals exact Kind.hasRange_of_nonneg (by decide)

/-- Settles O21: a decode is local, and its two octets lie at bytes 2 to 7 of a frame. -/
theorem headerOctetsAreNeverRead : Obligations.HeaderOctetsAreNeverRead := by
  intro tag s s' hagree
  refine decodeIsLocal tag s s' fun d hdesc => ?_
  obtain ⟨-, hlow, hhigh, hlt⟩ := addr_bounds_of_desc? hdesc
  exact ⟨hagree _ (by omega) hlow, hagree _ hlt (by omega)⟩

/-- Settles O22: the bindings lie at even addresses in bytes 2 to 7 of the frames, and cover them. -/
theorem decodeReachesTheWordsOfFb : Obligations.DecodeReachesTheWordsOfFb := by
  refine ⟨fun tag d hdesc => ?_, fun a => ⟨?_, fun ⟨ha, hbyte⟩ => exists_desc?_reading ha hbyte⟩⟩
  · obtain ⟨heven, -, -, hlt⟩ := addr_bounds_of_desc? hdesc
    exact ⟨heven, hlt⟩
  · rintro ⟨tag, d, hdesc, ha⟩
    obtain ⟨-, hlow, hhigh, hlt⟩ := addr_bounds_of_desc? hdesc
    omega

/-- Settles O25: the three known tags return -1 where their words are 0xFFFF, 99 and 49. -/
theorem onlyTheUnknownBitTellsTheSentinel : Obligations.OnlyTheUnknownBitTellsTheSentinel := by
  refine ⟨fun tag s => ⟨_, returns_decodeResult tag s, s.decodeResult_unk tag⟩, ?_⟩
  obtain ⟨hspeed, -⟩ := identityTagsDecode
  obtain ⟨hmgp, hect, -⟩ := offsetTagsDecode
  rintro i (rfl | rfl | rfl)
  · exact ⟨{ State.reset with fb := [(2, 0xFF#8), (3, 0xFF#8)] }, hspeed.returns_minus_one (by decide)⟩
  · exact ⟨{ State.reset with fb := [(6, 99#8), (7, 0#8)] }, hmgp.returns_minus_one (by decide)⟩
  · exact ⟨{ State.reset with fb := [(22, 49#8), (23, 0#8)] }, hect.returns_minus_one (by decide)⟩

/-- Settles O19: the first branch of `floatConv` in the whole range at `dp = 0`; the named values by computation. -/
theorem floatRenderingKeepsItsNamedValues : Obligations.FloatRenderingKeepsItsNamedValues :=
  ⟨fun _ hlow hhigh => if_pos ⟨rfl, hlow, hhigh⟩, rfl, rfl, rfl, rfl, rfl, rfl⟩

end Sys2Proof
end

section
/-! PROOFS. What a written frame reads as: octet by octet (30_encoding.md R70), word by word (20_memory.md R43), and after
two writes in a row (42_frame_write.md R150). -/

namespace Sys2Proof.Machine

/-! ### The transaction of an encoded write -/

/-- The word `frame ++ data` writes `data` to `frame` (30_encoding.md R60; 42_frame_write.md R150, R151). -/
theorem exec_decode_append (frame : FrameIx) (data : FrameData) (s : State) :
    exec (decode (.write (frame ++ data))) s = .next (s.writeFrame frame data) := by
  rw [exec_decode_write, Laws.frameField_append, Laws.dataField_append]

/-! ### Reading back what was written -/

/-- Bytes 2 to 7 of a frame are stored in every block (10_state.md R33). -/
theorem headerDropped_of_two_le {a : Nat} (h : 2 ≤ a % 8) : headerDropped a = false :=
  Bool.eq_false_iff.2 fun hdropped => Nat.not_lt.2 h ((headerDropped_eq_true_iff a).1 hdropped).1

/-- Every byte is stored where header octets are stored (10_state.md R33). -/
theorem headerDropped_of_stored (h : Config.storeHeaderBytes = true) (a : Nat) : headerDropped a = false := by
  rw [headerDropped, h, Bool.not_true, Bool.and_false]

/-- A stored octet of a written frame reads as the data's (42_frame_write.md R150). -/
theorem State.writeFrame_octet_same (s : State) {frame : FrameIx} (data : FrameData)
    (hframe : frame.toNat < Config.numFrames) {i : Nat} (hi : i < 8)
    (hstored : headerDropped (8 * frame.toNat + i) = false) :
    (s.writeFrame frame data).octet (8 * frame.toNat + i) = dataOctet data i := by
  have hdiv : (8 * frame.toNat + i) / 8 = frame.toNat := by omega
  have hmod : (8 * frame.toNat + i) % 8 = i := by omega
  rw [State.writeFrame_octet, if_pos ⟨hframe, hdiv, hstored⟩, hmod]

/-- An octet of another frame reads as before (42_frame_write.md R150). -/
theorem State.writeFrame_octet_other (s : State) {frame : FrameIx} (data : FrameData) {a : Nat}
    (h : a / 8 ≠ frame.toNat) : (s.writeFrame frame data).octet a = s.octet a := by
  rw [State.writeFrame_octet, if_neg fun hwritten => h hwritten.2.1]

/-- A 16-bit piece of the data is its two octets, low byte first (20_memory.md R43). -/
theorem extractLsb'_sixteen_toNat (data : FrameData) (o : Nat) :
    (data.extractLsb' (8 * o) 16).toNat = (dataOctet data o).toNat + 256 * (dataOctet data (o + 1)).toNat := by
  have hnext : data.toNat >>> (8 * (o + 1)) = data.toNat >>> (8 * o) / 256 := by
    rw [Nat.mul_add_one, Nat.shiftRight_add, Nat.shiftRight_eq_div_pow _ 8]
  simp only [dataOctet, BitVec.extractLsb'_toNat, hnext]
  omega

/-- A word at bytes 2 to 7 of a written frame reads as the data's (20_memory.md R43). -/
theorem wordAt_writeFrame_same (s : State) {frame : FrameIx} (data : FrameData)
    (hframe : frame.toNat < Config.numFrames) {o : Nat} (hlow : 2 ≤ o) (hhigh : o ≤ 6) :
    wordAt (s.writeFrame frame data) (8 * frame.toNat + o) = (data.extractLsb' (8 * o) 16).toNat := by
  rw [wordAt, Nat.add_assoc,
    s.writeFrame_octet_same data hframe (by omega) (headerDropped_of_two_le (by omega)),
    s.writeFrame_octet_same data hframe (by omega) (headerDropped_of_two_le (by omega)), extractLsb'_sixteen_toNat]

/-- A word of another frame reads as before (20_memory.md R45). -/
theorem wordAt_writeFrame_other (s : State) {frame : FrameIx} (data : FrameData) {a : Nat}
    (hlow : a / 8 ≠ frame.toNat) (hhigh : (a + 1) / 8 ≠ frame.toNat) :
    wordAt (s.writeFrame frame data) a = wordAt s a := by
  rw [wordAt, wordAt, s.writeFrame_octet_other data hlow, s.writeFrame_octet_other data hhigh]

/-- The octets of a data field written out from byte 7 down to byte 0 (30_encoding.md R70). The widths stay sums, so that
the library's lemmas about `++` apply. -/
theorem dataOctet_of_octets (b0 b1 b2 b3 b4 b5 b6 b7 : Byte) {data : FrameData}
    (h : data = b7 ++ b6 ++ b5 ++ b4 ++ b3 ++ b2 ++ b1 ++ b0) :
    dataOctet data 0 = b0 ∧ dataOctet data 1 = b1 ∧ dataOctet data 2 = b2 ∧ dataOctet data 3 = b3 ∧
    dataOctet data 4 = b4 ∧ dataOctet data 5 = b5 ∧ dataOctet data 6 = b6 ∧ dataOctet data 7 = b7 := by
  subst h
  refine ⟨?_, ?_, ?_, ?_, ?_, ?_, ?_, ?_⟩ <;>
    simp [-Nat.reduceAdd, dataOctet, BitVec.extractLsb'_append_eq_of_le, BitVec.extractLsb'_append_eq_right]

/-! ### Two writes in a row -/

/-- What the frame buffer lists at an address after a frame write. -/
theorem State.writeFrame_load (s : State) (frame : FrameIx) (data : FrameData) (a : Nat) :
    (s.writeFrame frame data).fb.load a =
      if frame.toNat < Config.numFrames ∧ a / 8 = frame.toNat then some (dataOctet data (a % 8)) else s.fb.load a := by
  by_cases hframe : frame.toNat < Config.numFrames
  · rw [State.writeFrame_of_lt hframe]
    simp only [Memory.load_storeAll, frameAddr, dataOctets_length, hframe, true_and]
    by_cases ha : a / 8 = frame.toNat
    · have hsub : a - 8 * frame.toNat = a % 8 := by omega
      rw [if_pos (by omega), if_pos ha, hsub, dataOctets_getElem? data (Nat.mod_lt a (by omega))]
    · rw [if_neg (by omega), if_neg ha]
  · rw [State.writeFrame_of_ge (by omega), if_neg fun h => hframe h.1]

/-- Two states in canonical form are equal when their frame buffers list the same octets and their other fields agree
(log entry 1). -/
theorem State.eq_of_load {s t : State} (hs : s.fb.wf = true) (ht : t.fb.wf = true)
    (hload : ∀ a, s.fb.load a = t.fb.load a)
    (hother : s.inFlight = t.inFlight ∧ s.answers = t.answers ∧ s.pending = t.pending ∧ s.draw = t.draw ∧
      s.races = t.races) : s = t := by
  have hfb : s.fb = t.fb := Memory.eq_of_load hs ht hload
  cases s
  cases t
  rw [State.mk.injEq]
  exact ⟨hfb, hother⟩

/-- The last write of a frame wins (42_frame_write.md R150). -/
theorem State.writeFrame_writeFrame_same (s : State) (frame : FrameIx) (d e : FrameData) (h : s.fb.wf = true) :
    (s.writeFrame frame d).writeFrame frame e = s.writeFrame frame e := by
  refine State.eq_of_load (State.writeFrame_wf (State.writeFrame_wf h)) (State.writeFrame_wf h) (fun a => ?_) (by simp)
  simp only [State.writeFrame_load]
  split <;> rfl

/-- Writes of different frames commute (42_frame_write.md R150). -/
theorem State.writeFrame_comm (s : State) {f g : FrameIx} (d e : FrameData) (hne : f ≠ g) (h : s.fb.wf = true) :
    (s.writeFrame g e).writeFrame f d = (s.writeFrame f d).writeFrame g e := by
  have hnat : f.toNat ≠ g.toNat := fun heq => hne (BitVec.eq_of_toNat_eq heq)
  refine State.eq_of_load (State.writeFrame_wf (State.writeFrame_wf h)) (State.writeFrame_wf (State.writeFrame_wf h))
    (fun a => ?_) (by simp)
  simp only [State.writeFrame_load]
  by_cases hf : a / 8 = f.toNat
  · have hg : a / 8 ≠ g.toNat := fun hg => hnat (hf.symm.trans hg)
    simp only [hg, and_false, if_false]
  · simp only [hf, and_false, if_false]

end Sys2Proof.Machine

namespace Sys2Proof
open Machine

/-- Settles O5: the word writes its data field to its frame, and octet `i` of the data is `b_i`. -/
theorem writeWordCarriesEightOctets : Obligations.WriteWordCarriesEightOctets := by
  intro frame b0 b1 b2 b3 b4 b5 b6 b7 s hframe
  generalize hdata : (b7 ++ b6 ++ b5 ++ b4 ++ b3 ++ b2 ++ b1 ++ b0 : FrameData) = data
  obtain ⟨h0, h1, h2, h3, h4, h5, h6, h7⟩ := dataOctet_of_octets b0 b1 b2 b3 b4 b5 b6 b7 hdata.symm
  have hlt : frame.toNat < Config.numFrames := Nat.lt_succ_of_le hframe
  have hread (i : Nat) (hlow : 2 ≤ i) (hhigh : i < 8) :
      (s.writeFrame frame data).octet (8 * frame.toNat + i) = dataOctet data i :=
    s.writeFrame_octet_same data hlt hhigh (headerDropped_of_two_le (by omega))
  have hheader (hstored : Config.storeHeaderBytes = true) (i : Nat) (hi : i < 8) :
      (s.writeFrame frame data).octet (8 * frame.toNat + i) = dataOctet data i :=
    s.writeFrame_octet_same data hlt hi (headerDropped_of_stored hstored _)
  refine ⟨s.writeFrame frame data, exec_decode_append frame data s, ?_, ?_, ?_, ?_, ?_, ?_, fun hstored => ⟨?_, ?_⟩,
    fun a ha => s.writeFrame_octet_other data ha⟩
  · exact (hread 2 (by omega) (by omega)).trans h2
  · exact (hread 3 (by omega) (by omega)).trans h3
  · exact (hread 4 (by omega) (by omega)).trans h4
  · exact (hread 5 (by omega) (by omega)).trans h5
  · exact (hread 6 (by omega) (by omega)).trans h6
  · exact (hread 7 (by omega) (by omega)).trans h7
  · exact (hheader hstored 0 (by omega)).trans h0
  · exact (hheader hstored 1 (by omega)).trans h1

/-- Settles O28: the word read back is the 16 bits of the data, which are its two octets. -/
theorem writtenWordReadsBack : Obligations.WrittenWordReadsBack := by
  intro frame data o s hframe ho
  have hword : wordAt (s.writeFrame frame data) (8 * frame.toNat + o) = (data.extractLsb' (8 * o) 16).toNat :=
    wordAt_writeFrame_same s data (Nat.lt_succ_of_le hframe) (by omega) (by omega)
  exact ⟨_, exec_decode_append frame data s, hword, hword.trans (extractLsb'_sixteen_toNat data o)⟩

/-- Settles O29: both orders list the same octets, and memories in canonical form that do are equal. -/
theorem writesOfTwoFramesCommute : Obligations.WritesOfTwoFramesCommute := by
  intro f g d e s hwf
  refine ⟨_, _, _, exec_decode_append f d s, exec_decode_append g e _, exec_decode_append g e s, ?_, fun hne => ?_⟩
  · rintro rfl
    exact s.writeFrame_writeFrame_same f d e hwf
  · rw [exec_decode_append, s.writeFrame_comm d e hne hwf]

end Sys2Proof
end

section
/-! PROOFS. One step: what each event does, and what any step can do (20_memory.md R49, R51; 70_reset_and_hazards.md
R180, R183, R186, R188). -/

namespace Sys2Proof.Machine

/-! ### The rule of each event -/

/-- A frame write neither reads nor changes the model's own fields. -/
theorem State.writeFrame_with_events (s : State) (pending : List Event) (races : Nat) (frame : FrameIx)
    (data : FrameData) : State.writeFrame { s with pending := pending, races := races } frame data =
      { s.writeFrame frame data with pending := pending, races := races } := by
  by_cases h : frame.toNat < Config.numFrames
  · rw [State.writeFrame_of_lt h, State.writeFrame_of_lt h]
  · rw [State.writeFrame_of_ge (Nat.not_lt.1 h), State.writeFrame_of_ge (Nat.not_lt.1 h)]

/-- A step that accepts a decode request puts its result in flight. -/
theorem step_port_decode {s : State} {tag : Tag} {rest : List Event} (h : s.pending = .port (.decode tag) :: rest) :
    step s = .next (State.issue { s with pending := rest } (s.decodeResult tag)) :=
  (step_port h).trans (returns_decodeResult tag _)

/-- A step that accepts a frame write writes its data field to the frame of its frame field. -/
theorem step_port_write {s : State} {bits : BitVec 68} {rest : List Event} (h : s.pending = .port (.write bits) :: rest) :
    step s = .next { s.writeFrame (frameField bits) (dataField bits) with pending := rest, races := s.races } := by
  rw [step_port h, exec_decode_write, State.writeFrame_with_events s rest s.races]

/-- A same-cycle pair with the write first: the write is accepted and the decode stays first in line. -/
theorem step_sameCycle_of_writeFirst {s : State} {tag : Tag} {bits : BitVec 68} {rest : List Event}
    (h : s.pending = .sameCycle tag bits :: rest) (hrace : Config.writeFirst s.races = true) :
    step s = .next { s.writeFrame (frameField bits) (dataField bits) with
      pending := .port (.decode tag) :: rest, races := s.races + 1 } := by
  have hexec := exec_decode_write bits { s with pending := .port (.decode tag) :: rest, races := s.races + 1 }
  rw [step_sameCycle_write h hrace, ← State.writeFrame_with_events, ← hexec, decode]

/-- A same-cycle pair with the decode first: its result is put in flight and the write stays first in line. -/
theorem step_sameCycle_of_decodeFirst {s : State} {tag : Tag} {bits : BitVec 68} {rest : List Event}
    (h : s.pending = .sameCycle tag bits :: rest) (hrace : Config.writeFirst s.races = false) :
    step s = .next (State.issue { s with pending := .port (.write bits) :: rest, races := s.races + 1 }
      (s.decodeResult tag)) :=
  (step_sameCycle_decode h hrace).trans (returns_decodeResult tag _)

/-! ### What a step can do -/

/-- Everything a step can do, and for a write or a reset the event it took: it issues a result, writes the frame of a
write event, delivers, or resets. -/
theorem step_inversion {s t : State} (h : step s = .next t) :
    (∃ (pending : List Event) (races : Nat) (r : Result),
      t = State.issue { s with pending := pending, races := races } r) ∨
    (∃ (e : Event) (rest pending : List Event) (races : Nat) (bits : BitVec 68), s.pending = e :: rest ∧
      (e = .port (.write bits) ∨ ∃ tag : Tag, e = .sameCycle tag bits) ∧
      t = { s.writeFrame (frameField bits) (dataField bits) with pending := pending, races := races }) ∨
    (∃ pending : List Event, t = State.deliverOldest { s with pending := pending }) ∨
    (∃ rest : List Event, s.pending = .reset :: rest ∧ t = State.hostReset { s with pending := rest }) := by
  cases hpending : s.pending with
  | nil =>
    rw [step_nil hpending] at h
    cases h
    exact .inr (.inr (.inl ⟨s.pending, rfl⟩))
  | cons event rest =>
    cases event with
    | port word =>
      cases word with
      | decode tag =>
        rw [step_port_decode hpending] at h
        cases h
        exact .inl ⟨rest, s.races, _, rfl⟩
      | write bits =>
        rw [step_port_write hpending] at h
        cases h
        exact .inr (.inl ⟨_, rest, rest, s.races, bits, rfl, .inl rfl, rfl⟩)
    | sameCycle tag bits =>
      cases hrace : Config.writeFirst s.races with
      | true =>
        rw [step_sameCycle_of_writeFirst hpending hrace] at h
        cases h
        exact .inr (.inl ⟨_, rest, _, _, bits, rfl, .inr ⟨tag, rfl⟩, rfl⟩)
      | false =>
        rw [step_sameCycle_of_decodeFirst hpending hrace] at h
        cases h
        exact .inl ⟨_, _, _, rfl⟩
    | deliver =>
      rw [step_deliver hpending] at h
      cases h
      exact .inr (.inr (.inl ⟨rest, rfl⟩))
    | reset =>
      rw [step_reset hpending] at h
      cases h
      exact .inr (.inr (.inr ⟨rest, rfl, rfl⟩))

/-- Every transaction completes (60_exceptions.md R160). -/
theorem exists_exec_eq_next (i : Instr) (s : State) : ∃ t : State, exec i s = .next t := by
  obtain ⟨r, -, hexec⟩ | ⟨frame, data, hexec⟩ := exec_cases i s
  · exact ⟨_, hexec⟩
  · exact ⟨_, hexec⟩

/-- Every step completes (70_reset_and_hazards.md R187, R188). -/
theorem safeStep (s : State) : SafeStep s := by
  obtain ⟨i, pending, races, hstep⟩ | ⟨pending, hstep⟩ | ⟨pending, hstep⟩ := step_cases s
  · obtain ⟨t, hexec⟩ := exists_exec_eq_next i { s with pending := pending, races := races }
    exact ⟨t, hstep.trans hexec⟩
  · exact ⟨_, hstep⟩
  · exact ⟨_, hstep⟩

/-! ### The results on their way to the host -/

/-- Delivering answers at most one result. -/
theorem State.deliverOldest_answers (s : State) :
    ∃ returned : List Result, s.deliverOldest.answers = s.answers ++ returned ∧ returned.length ≤ 1 := by
  cases hflight : s.inFlight with
  | nil =>
    rw [State.deliverOldest_nil hflight]
    exact ⟨[], (List.append_nil _).symm, Nat.zero_le 1⟩
  | cons r rest =>
    rw [State.deliverOldest_cons hflight]
    exact ⟨[r], rfl, Nat.le_refl 1⟩

/-- Delivering puts no result in flight. -/
theorem State.deliverOldest_inFlight_length_le (s : State) : s.deliverOldest.inFlight.length ≤ s.inFlight.length := by
  cases hflight : s.inFlight with
  | nil => exact Nat.le_of_eq (by rw [State.deliverOldest_nil hflight, hflight])
  | cons r rest =>
    rw [State.deliverOldest_cons hflight]
    exact Nat.le_succ rest.length

/-- A step keeps what was answered and answers at most one result more (70_reset_and_hazards.md R186). -/
theorem step_answers {s t : State} (h : step s = .next t) :
    ∃ returned : List Result, t.answers = s.answers ++ returned ∧ returned.length ≤ 1 := by
  have hnone : ∃ returned : List Result, s.answers = s.answers ++ returned ∧ returned.length ≤ 1 :=
    ⟨[], (List.append_nil _).symm, Nat.zero_le 1⟩
  obtain ⟨pending, races, r, rfl⟩ | ⟨e, rest, pending, races, bits, -, -, rfl⟩ | ⟨pending, rfl⟩ | ⟨rest, -, rfl⟩ :=
    step_inversion h
  · exact hnone
  · exact (State.writeFrame_answers s _ _).symm ▸ hnone
  · exact State.deliverOldest_answers { s with pending := pending }
  · exact hnone

/-- A step that is no reset keeps every result, answered or in flight, in its order, and puts at most one new one behind
them (70_reset_and_hazards.md R186). -/
theorem step_results {s t : State} (h : step s = .next t) (hnoreset : ∀ rest : List Event, s.pending ≠ .reset :: rest) :
    ∃ issued : List Result, t.answers ++ t.inFlight = s.answers ++ s.inFlight ++ issued ∧ issued.length ≤ 1 := by
  obtain ⟨pending, races, r, rfl⟩ | ⟨e, rest, pending, races, bits, -, -, rfl⟩ | ⟨pending, rfl⟩ | ⟨rest, hreset, rfl⟩ :=
    step_inversion h
  · exact ⟨[r], (List.append_assoc ..).symm, Nat.le_refl 1⟩
  · exact ⟨[], by simp, Nat.zero_le 1⟩
  · exact ⟨[], by rw [State.deliverOldest_results, List.append_nil], Nat.zero_le 1⟩
  · exact absurd hreset (hnoreset rest)

/-! ### What a frame write or a reset leaves in FB -/

/-- An octet that a frame write changes lies in the written frame, which exists (42_frame_write.md R150, R151). -/
theorem State.frame_of_writeFrame_octet_ne {s : State} {frame : FrameIx} {data : FrameData} {a : Nat}
    (h : (s.writeFrame frame data).octet a ≠ s.octet a) : frame.toNat = a / 8 ∧ a < 104 := by
  have hnum : Config.numFrames = 13 := rfl
  by_cases hwritten : frame.toNat < Config.numFrames ∧ a / 8 = frame.toNat ∧ headerDropped a = false
  · obtain ⟨hframe, ha, -⟩ := hwritten
    omega
  · rw [State.writeFrame_octet, if_neg hwritten] at h
    exact absurd rfl h

/-- With nothing written, every octet reads as a draw of `FB_INIT` (10_state.md R33). -/
theorem State.octet_of_fb_nil {s : State} (h : s.fb = []) (a : Nat) : s.octet a = Config.fbInit s.draw a := by
  rw [State.octet, h]
  exact ite_self _

/-! ### The invariant -/

/-- Issuing a legal result keeps the invariant. -/
theorem State.Inv.issue {s : State} (h : s.Inv) {r : Result} (hr : r.Legal) : (s.issue r).Inv := by
  obtain ⟨hwf, hlegal⟩ := h
  refine ⟨hwf, fun x hx => ?_⟩
  rw [State.issue_answers, State.issue_inFlight, ← List.append_assoc, List.mem_append, List.mem_singleton] at hx
  obtain hx | rfl := hx
  · exact hlegal x hx
  · exact hr

/-- A frame write keeps the invariant. -/
theorem State.Inv.writeFrame {s : State} (h : s.Inv) (frame : FrameIx) (data : FrameData) :
    (s.writeFrame frame data).Inv := by
  obtain ⟨hwf, hlegal⟩ := h
  exact ⟨State.writeFrame_wf hwf, by simpa using hlegal⟩

/-- Delivering keeps the invariant. -/
theorem State.Inv.deliverOldest {s : State} (h : s.Inv) : s.deliverOldest.Inv := by
  obtain ⟨hwf, hlegal⟩ := h
  rw [State.Inv, State.deliverOldest_results, State.deliverOldest_fb]
  exact ⟨hwf, hlegal⟩

/-- A reset keeps the invariant. -/
theorem State.Inv.hostReset {s : State} (h : s.Inv) : s.hostReset.Inv := by
  obtain ⟨-, hlegal⟩ := h
  refine ⟨rfl, fun r hr => hlegal r ?_⟩
  rw [State.hostReset_answers, State.hostReset_inFlight, List.append_nil] at hr
  exact List.mem_append_left _ hr

/-- Every transaction keeps the invariant. -/
theorem State.Inv.of_exec {i : Instr} {s t : State} (h : s.Inv) (hexec : exec i s = .next t) : t.Inv := by
  obtain ⟨r, hlegal, hissue⟩ | ⟨frame, data, hwrite⟩ := exec_cases i s
  · rw [hissue] at hexec
    cases hexec
    exact h.issue hlegal
  · rw [hwrite] at hexec
    cases hexec
    exact h.writeFrame frame data

end Sys2Proof.Machine

namespace Sys2Proof
open Machine

/-- Settles O41: a step runs a transaction, delivers or resets, and each of these keeps the invariant; the fields
`pending` and `races` are no part of it. -/
theorem stepKeepsTheInvariant : Obligations.StepKeepsTheInvariant := by
  intro s t hinv hstep
  have hother (pending : List Event) (races : Nat) : State.Inv { s with pending := pending, races := races } := hinv
  obtain ⟨i, pending, races, hrun⟩ | ⟨pending, hdeliver⟩ | ⟨pending, hreset⟩ := step_cases s
  · exact (hother pending races).of_exec (hrun ▸ hstep)
  · rw [hdeliver] at hstep
    cases hstep
    exact (hother pending s.races).deliverOldest
  · rw [hreset] at hstep
    cases hstep
    exact (hother pending s.races).hostReset

/-- Settles O35: issuing and delivering leave every octet, and a frame write changes octets of its frame only. -/
theorem fbChangesOnlyByWriteOrReset : Obligations.FbChangesOnlyByWriteOrReset := by
  intro s t a hstep hne
  obtain ⟨pending, races, r, rfl⟩ | ⟨e, rest, pending, races, bits, hpending, he, rfl⟩ | ⟨pending, rfl⟩ |
    ⟨rest, hpending, rfl⟩ := step_inversion hstep
  · exact absurd rfl hne
  · obtain ⟨hframe, ha⟩ := State.frame_of_writeFrame_octet_ne hne
    exact ⟨e, rest, hpending, .inr ⟨bits, hframe, ha, he⟩⟩
  · exact absurd (State.deliverOldest_octet _ a) hne
  · exact ⟨_, rest, hpending, .inl rfl⟩

/-- Settles O32: no transaction and no step can do anything but answer a next state. -/
theorem everyStepCompletes : Obligations.EveryStepCompletes :=
  ⟨exists_exec_eq_next, safeStep⟩

/-- Settles O38: `step_answers`, `step_results`, and the step rule of a reset. -/
theorem resultsReturnInOrder : Obligations.ResultsReturnInOrder := by
  intro s t hstep
  refine ⟨step_answers hstep, step_results hstep, fun ⟨rest, hreset⟩ => ?_⟩
  rw [step_reset hreset] at hstep
  cases hstep
  exact ⟨rfl, rfl⟩

/-- Settles O30: the step rule of each kind of next event. -/
theorem stepRunsTheDecodedTransaction : Obligations.StepRunsTheDecodedTransaction := by
  intro s rest
  refine ⟨fun _ => step_port, fun tag bits hpending => ?_, step_deliver, step_reset, step_nil, fun hpending hflight => ?_⟩
  · cases hrace : Config.writeFirst s.races with
    | true => exact step_sameCycle_write hpending hrace
    | false => exact step_sameCycle_decode hpending hrace
  · rw [step_nil hpending, State.deliverOldest_nil hflight]

/-- Settles O36: a reset lists no octet and moves on to the next draw. -/
theorem hostResetRedrawsTheBuffer : Obligations.HostResetRedrawsTheBuffer :=
  fun _ _ hpending => ⟨_, step_reset hpending, State.octet_of_fb_nil rfl, rfl, rfl, rfl⟩

/-- Settles O37: the reset state lists no octet. -/
theorem resetStateHoldsOnlyDraws : Obligations.ResetStateHoldsOnlyDraws :=
  ⟨State.octet_of_fb_nil rfl, rfl, rfl⟩

/-- Settles O40: an empty frame buffer is in canonical form, and there is no answer. -/
theorem resetMeetsTheInvariant : Obligations.ResetMeetsTheInvariant :=
  ⟨rfl, fun _ hr => absurd hr List.not_mem_nil⟩

end Sys2Proof
end

section
/-! PROOFS. Several steps: a frame write beside a decode, in consecutive cycles and in the same cycle
(70_reset_and_hazards.md R183; 20_memory.md R51), and the run that accepts every pending event and returns every result
(R186). -/

namespace Sys2Proof.Machine

/-! ### A frame write before a decode -/

/-- A frame write and the issue of a result do not meet. -/
theorem State.writeFrame_issue (s : State) (r : Result) (frame : FrameIx) (data : FrameData) :
    (s.issue r).writeFrame frame data = (s.writeFrame frame data).issue r := by
  by_cases h : frame.toNat < Config.numFrames
  · rw [State.writeFrame_of_lt h, State.writeFrame_of_lt h]
    rfl
  · rw [State.writeFrame_of_ge (Nat.not_lt.1 h), State.writeFrame_of_ge (Nat.not_lt.1 h)]

/-- A binding's word lies in the bytes 2 to 7 of its frame (30_encoding.md R62). -/
theorem offset_bounds_of_desc? {tag : Tag} {d : Descriptor} (h : desc? tag = some d) :
    2 ≤ d.offset.val ∧ d.offset.val ≤ 6 := by
  obtain ⟨-, hlow, hhigh, -⟩ := addr_bounds_of_desc? h
  have hoffset := d.offset.isLt
  rw [Descriptor.addr] at hlow hhigh
  omega

/-- Both octets of a binding lie in its frame (20_memory.md R41). -/
theorem addr_div_of_desc? {tag : Tag} {d : Descriptor} (h : desc? tag = some d) :
    d.addr / 8 = d.frame.val ∧ (d.addr + 1) / 8 = d.frame.val := by
  obtain ⟨-, hhigh⟩ := offset_bounds_of_desc? h
  rw [Descriptor.addr]
  omega

/-- A word inside the data field of a write word is a piece of the write word itself (30_encoding.md R60). -/
theorem extractLsb'_dataField (bits : BitVec 68) {o : Nat} (ho : o ≤ 6) :
    (dataField bits).extractLsb' (8 * o) 16 = bits.extractLsb' (8 * o) 16 :=
  BitVec.extractLsb'_extractLsb'_of_le (by omega)

/-- The raw value of a binding after a frame write: the word of the data if the write is to the binding's frame, and the
word of before otherwise (70_reset_and_hazards.md R183). -/
theorem rawAt_writeFrame_of_desc? (s : State) (frame : FrameIx) (data : FrameData) {tag : Tag} {d : Descriptor}
    (h : desc? tag = some d) :
    rawAt (s.writeFrame frame data) d.addr =
      if frame.toNat = d.frame.val then signed16 (data.extractLsb' (8 * d.offset.val) 16).toNat else rawAt s d.addr := by
  split
  · next hframe =>
    obtain ⟨hlow, hhigh⟩ := offset_bounds_of_desc? h
    have hlt : frame.toNat < Config.numFrames := hframe ▸ d.frame.isLt
    rw [Descriptor.addr, rawAt, ← hframe, wordAt_writeFrame_same s data hlt hlow hhigh]
  · next hframe =>
    obtain ⟨hlow, hhigh⟩ := addr_div_of_desc? h
    rw [rawAt, rawAt, wordAt_writeFrame_other s data (by omega) (by omega)]

/-- A frame write to another frame than the binding's leaves the decode's result (40_decode_datapath.md R89). -/
theorem State.decodeResult_writeFrame_other (s : State) {frame : FrameIx} (data : FrameData) {tag : Tag}
    (h : ∀ d : Descriptor, desc? tag = some d → d.frame.val ≠ frame.toNat) :
    s.decodeResult tag = (s.writeFrame frame data).decodeResult tag := by
  refine State.decodeResult_congr fun d hdesc => ?_
  obtain ⟨hlow, hhigh⟩ := addr_div_of_desc? hdesc
  have hne := h d hdesc
  rw [s.writeFrame_octet_other data (hlow.symm ▸ hne), s.writeFrame_octet_other data (hhigh.symm ▸ hne)]
  exact ⟨rfl, rfl⟩

/-- The mantissa of a known tag's result, from the raw value at its binding (40_decode_datapath.md R84). -/
theorem State.decodeResult_m_toInt (s : State) {tag : Tag} {d : Descriptor} (h : desc? tag = some d) :
    (s.decodeResult tag).m.toInt = d.kind.k * rawAt s d.addr + d.kind.c := by
  rw [s.decodeResult_of_desc? h, transform_m_toInt, State.readWord_toNat, rawAt]

/-! ### Runs that lose no result -/

/-- One step as a run. -/
theorem steps_one {s t : State} (h : step s = .next t) : steps 1 s = .next t := steps_succ 0 h

/-- A run after a run is a run. -/
theorem steps_add {m : Nat} {s t : State} (h : steps m s = .next t) (n : Nat) : steps (m + n) s = steps n t := by
  induction m generalizing s with
  | zero =>
    cases h
    rw [Nat.zero_add]
  | succ m ih =>
    obtain ⟨u, hu⟩ := safeStep s
    rw [steps_succ m hu] at h
    rw [Nat.add_right_comm, steps_succ (m + n) hu, ih h]

/-- `n` steps lead from `s` to `t`, keep every result in its order, put `issued` behind them, and leave no more in flight
than were in flight or issued. -/
structure Advances (n : Nat) (s t : State) (issued : List Result) : Prop where
  run : steps n s = .next t
  results : t.answers ++ t.inFlight = s.answers ++ s.inFlight ++ issued
  inFlight_le : t.inFlight.length ≤ s.inFlight.length + issued.length

/-- Advancing twice. -/
theorem Advances.trans {m n : Nat} {s t u : State} {a b : List Result} (h : Advances m s t a) (h' : Advances n t u b) :
    Advances (m + n) s u (a ++ b) where
  run := (steps_add h.run n).trans h'.run
  results := by rw [h'.results, h.results, List.append_assoc]
  inFlight_le := by
    have hle := h.inFlight_le
    have hle' := h'.inFlight_le
    rw [List.length_append]
    omega

/-- A step that issues a result advances by that result. -/
theorem Advances.of_issue {s : State} {pending : List Event} {races : Nat} {r : Result}
    (h : step s = .next (State.issue { s with pending := pending, races := races } r)) :
    Advances 1 s (State.issue { s with pending := pending, races := races } r) [r] where
  run := steps_one h
  results := (List.append_assoc ..).symm
  inFlight_le := Nat.le_of_eq List.length_append

/-- A step that writes a frame advances by no result. -/
theorem Advances.of_writeFrame {s : State} {pending : List Event} {races : Nat} {frame : FrameIx} {data : FrameData}
    (h : step s = .next { s.writeFrame frame data with pending := pending, races := races }) :
    Advances 1 s { s.writeFrame frame data with pending := pending, races := races } [] where
  run := steps_one h
  results := by simp
  inFlight_le := by simp

/-- A step that delivers advances by no result. -/
theorem Advances.of_deliverOldest {s : State} {pending : List Event}
    (h : step s = .next (State.deliverOldest { s with pending := pending })) :
    Advances 1 s (State.deliverOldest { s with pending := pending }) [] where
  run := steps_one h
  results := by rw [State.deliverOldest_results, List.append_nil]
  inFlight_le := State.deliverOldest_inFlight_length_le _

/-- One event that is no reset is taken in at most two steps, which issue one result for each decode request. -/
theorem exists_advances_event {s : State} {event : Event} {rest : List Event} (h : s.pending = event :: rest)
    (hnoreset : event ≠ .reset) : ∃ (n : Nat) (t : State) (issued : List Result), n ≤ 2 ∧ Advances n s t issued ∧
      t.pending = rest ∧ issued.length = event.requests := by
  cases event with
  | port word =>
    cases word with
    | decode tag => exact ⟨1, _, _, by decide, .of_issue (step_port_decode h), rfl, rfl⟩
    | write bits => exact ⟨1, _, _, by decide, .of_writeFrame (step_port_write h), rfl, rfl⟩
  | sameCycle tag bits =>
    cases hrace : Config.writeFirst s.races with
    | true =>
      have hwrite := step_sameCycle_of_writeFirst h hrace
      exact ⟨2, _, _, Nat.le_refl 2, (Advances.of_writeFrame hwrite).trans (.of_issue (step_port_decode rfl)), rfl, rfl⟩
    | false =>
      have hdecode := step_sameCycle_of_decodeFirst h hrace
      exact ⟨2, _, _, Nat.le_refl 2, (Advances.of_issue hdecode).trans (.of_writeFrame (step_port_write rfl)), rfl, rfl⟩
  | deliver => exact ⟨1, _, _, by decide, .of_deliverOldest (step_deliver h), State.deliverOldest_pending _, rfl⟩
  | reset => exact absurd rfl hnoreset

/-- Pending events with no reset among them are all taken in at most two steps each. -/
theorem exists_advances_pending {events : List Event} {s : State} (h : s.pending = events)
    (hnoreset : Event.reset ∉ events) : ∃ (n : Nat) (t : State) (issued : List Result), n ≤ 2 * events.length ∧
      Advances n s t issued ∧ t.pending = [] ∧ issued.length = (events.map Event.requests).sum := by
  induction events generalizing s with
  | nil => exact ⟨0, s, [], Nat.le_refl 0, ⟨rfl, (List.append_nil _).symm, Nat.le_refl _⟩, h, rfl⟩
  | cons event rest ih =>
    obtain ⟨hevent, hrest⟩ := not_or.1 (mt List.mem_cons.2 hnoreset)
    obtain ⟨m, t, first, hm, hfirst, htpending, hfirstLength⟩ := exists_advances_event h (Ne.symm hevent)
    obtain ⟨n, u, others, hn, hothers, hupending, hothersLength⟩ := ih htpending hrest
    refine ⟨m + n, u, first ++ others, ?_, hfirst.trans hothers, hupending, ?_⟩
    · rw [List.length_cons]
      omega
    · rw [List.length_append, List.map_cons, List.sum_cons, hfirstLength, hothersLength]

/-- An event brings at most one decode request. -/
theorem Event.requests_le_one (event : Event) : event.requests ≤ 1 := by
  cases event with
  | port word => cases word <;> simp [Event.requests]
  | _ => simp [Event.requests]

/-- A list of events brings at most as many decode requests as it is long. -/
theorem sum_requests_le (events : List Event) : (events.map Event.requests).sum ≤ events.length := by
  induction events with
  | nil => exact Nat.le_refl 0
  | cons event rest ih =>
    have hevent := event.requests_le_one
    rw [List.map_cons, List.sum_cons, List.length_cons]
    omega

/-- With nothing pending, as many steps as there are results in flight return them all, in order. -/
theorem steps_drain {flight : List Result} {s : State} (hpending : s.pending = []) (hflight : s.inFlight = flight) :
    steps flight.length s = .next { s with inFlight := [], answers := s.answers ++ flight } := by
  induction flight generalizing s with
  | nil =>
    rw [List.length_nil, steps, List.append_nil, ← hflight]
  | cons r rest ih =>
    have hstep := step_nil hpending
    rw [State.deliverOldest_cons hflight] at hstep
    have hrest := ih (s := { s with inFlight := rest, answers := s.answers ++ [r] }) hpending rfl
    rw [List.length_cons, steps_succ _ hstep, hrest, List.append_assoc, List.singleton_append]

end Sys2Proof.Machine

namespace Sys2Proof
open Machine

/-- Settles O33: the first step writes the frame, the second decodes in the state it leaves. -/
theorem writeThenDecodeNeedsNoGap : Obligations.WriteThenDecodeNeedsNoGap := by
  intro s bits tag d rest hpending hdesc
  have hinFlight := State.writeFrame_inFlight s (frameField bits) (dataField bits)
  have hresult := (s.writeFrame (frameField bits) (dataField bits)).decodeResult_of_desc? hdesc
  have hm := (s.writeFrame (frameField bits) (dataField bits)).decodeResult_m_toInt hdesc
  rw [rawAt_writeFrame_of_desc? s _ _ hdesc, extractLsb'_dataField bits (offset_bounds_of_desc? hdesc).2] at hm
  exact ⟨_, _, (s.writeFrame (frameField bits) (dataField bits)).decodeResult tag, step_port_write hpending,
    step_port_decode rfl, rfl, congrArg (· ++ _) hinFlight, rfl, hresult ▸ rfl, hresult ▸ rfl, hm⟩

/-- Settles O34: the write first gives the result after it, the decode first the result before it. -/
theorem sameCyclePairIsOneOfTwoOrders : Obligations.SameCyclePairIsOneOfTwoOrders := by
  intro s tag bits rest hpending
  have hinFlight := State.writeFrame_inFlight s (frameField bits) (dataField bits)
  have hother := s.decodeResult_writeFrame_other (frame := frameField bits) (dataField bits) (tag := tag)
  cases hrace : Config.writeFirst s.races with
  | true =>
    exact ⟨_, _, _, _, _, _, exec_decode_write bits s, returns_decodeResult tag s, returns_decodeResult tag _,
      step_sameCycle_of_writeFirst hpending hrace, step_port_decode rfl, rfl, rfl, rfl,
      congrArg (· ++ _) hinFlight, .inr rfl, hother⟩
  | false =>
    have hwrite := step_port_write (s := State.issue
      { s with pending := .port (.write bits) :: rest, races := s.races + 1 } (s.decodeResult tag)) rfl
    rw [State.writeFrame_issue, State.writeFrame_with_events] at hwrite
    exact ⟨_, _, _, _, _, _, exec_decode_write bits s, returns_decodeResult tag s, returns_decodeResult tag _,
      step_sameCycle_of_decodeFirst hpending hrace, hwrite, rfl, rfl, rfl, congrArg (· ++ _) hinFlight, .inl rfl, hother⟩

/-- Settles O39: the run through the pending events, then the results still in flight one by one. -/
theorem everyAcceptedDecodeIsAnswered : Obligations.EveryAcceptedDecodeIsAnswered := by
  refine ⟨fun s hpending => steps_drain hpending rfl, fun s hnoreset => ?_⟩
  obtain ⟨n, t, issued, hn, ⟨hrun, hresults, hle⟩, htpending, hlength⟩ := exists_advances_pending rfl hnoreset
  have hsum := sum_requests_le s.pending
  exact ⟨n + t.inFlight.length, _, issued, by omega, (steps_add hrun _).trans (steps_drain htpending rfl), htpending, rfl,
    hresults, hlength⟩

end Sys2Proof
end
